-- ==== Sys2Proof/Word.lean ====
section
/-! DEFINITION. The words of the EB1636: bytes on the buses and in the slots, four-bit nibbles of
the overhead byte, 16-bit ids and counts, 32-bit labels (11, R188), the number of a line port, and the
places of its bits. -/

namespace Sys2Proof

/-- A byte of a slot or of a management frame. -/
abbrev Byte := BitVec 8

/-- Half of the overhead byte: the alignment nibble or the maintenance symbol (R1, R2). -/
abbrev Nibble := BitVec 4

/-- A two-byte field of a frame: a record id, a burst count, a counter (R188). -/
abbrev Half := BitVec 16

/-- A record's label (R46). -/
abbrev Label := BitVec 32

/-- The number of a line port, P0 to P15. -/
abbrev PortNo := Fin 16

/-- A bit's place in the 288-bit frame period (R3). -/
abbrev Place := Fin 288

end Sys2Proof
end

