-- ==== Sys2Proof/Config.lean ====
section
/-! DEFINITION. The fixed sizes and times of the EB1636. The spec leaves no value to the
implementation and none undefined, so no free value stands here. -/

namespace Sys2Proof.Config

/-- Records of the connection table (R38). -/
abbrev records : Nat := 512

/-- Protection contexts (R125). -/
abbrev contexts : Nat := 128

/-- Bits of a frame period (R1). -/
abbrev frameBits : Nat := 288

/-- Slots of a frame, the overhead slot among them (R1). -/
abbrev frameSlots : Nat := 36

/-- The last payload slot (R1, R40). -/
abbrev lastSlot : Nat := 35

/-- Nominal distance of system frame starts, 125 µs, in nanoseconds (R24, log 3). -/
abbrev frameNs : Nat := 125000

/-- The mark window opens 124 µs after the reference point (R24). -/
abbrev windowOpenNs : Nat := 124000

/-- The mark window closes 126 µs after the reference point (R24). -/
abbrev windowCloseNs : Nat := 126000

/-- Marks at the right spacing that re-acquire the reference (R26). -/
abbrev goodMarks : Nat := 16

/-- Missed windows that lose the reference (R25). -/
abbrev missedMarks : Nat := 3

/-- System frame starts of a supervision interval (R106). -/
abbrev intervalFrames : Nat := 80

/-- System frame starts of a slip period (R36). -/
abbrev slipPeriodFrames : Nat := 8000

/-- System frames of the 10 s unit of wait-to-restore and loop timeout (R139, R156). -/
abbrev longUnitFrames : Nat := 80000

/-- Supervision intervals of the 100 ms clear-time unit (R111). -/
abbrev clearUnitIntervals : Nat := 10

/-- The value at which a 16-bit counter stops (R7, R32, R131). -/
abbrev counterMax : Nat := 65535

/-- The value at which the period slip count stops (02, state table). -/
abbrev periodSlipMax : Nat := 255

/-- Frames of a maintenance code until it is recognized; the run length stops here (R146, R147). -/
abbrev codeRun : Nat := 64

/-- Frames that raise FAR_ALARM, and frames without it that clear it (R148). -/
abbrev farRun : Nat := 16

/-- The greatest declared parameter length of a request frame (R173). -/
abbrev maxParams : Nat := 29

/-- The identity word (R185). -/
abbrev identity : BitVec 32 := 0x0EB16360

/-- Port S's slave address with both straps low (R172). -/
abbrev baseAddress : BitVec 7 := 0x5C

end Sys2Proof.Config
end

