-- ==== Sys2Proof/Syntax.lean ====
section
/-! DEFINITION. The commands of the EB1636: one constructor of `Instr` per row of
spec/opcode_table.json. The parameters of a request are the bytes of its frame (R189), unchecked:
the checks of a request are part of its meaning. -/

namespace Sys2Proof

/-- An end as a frame carries it: port byte, then first-slot byte (R188). -/
structure RawEnd where
  port : Byte
  first : Byte
  deriving DecidableEq, Repr

/-- The parameters of CONNECT (R66, R189); the destination count is the length of `dests`. -/
structure ConnectReq where
  kind : Byte
  width : Byte
  source : RawEnd
  dests : List RawEnd
  label : Label
  code : Option Byte
  /-- hold-off and clear time, carried together -/
  profile : Option (Byte × Byte)
  deriving DecidableEq, Repr

/-- The parameters of MODIFY (R72, R189). -/
structure ModifyReq where
  id : Half
  expected : Byte
  label : Option Label
  code : Option Byte
  holdOff : Option Byte
  clearTime : Option Byte
  add : Option RawEnd
  remove : Option Byte
  deriving DecidableEq, Repr

/-- The parameters of PROTECT (R127, R189). -/
structure ProtectReq where
  id : Half
  expected : Byte
  standby : RawEnd
  mode : Byte
  wtr : Option Byte
  deriving DecidableEq, Repr

/-- The parameters of PORT_SET (R19, R189). -/
structure PortSetReq where
  port : Byte
  enable : Option Byte
  idleCode : Option Byte
  codeResponse : Option Byte
  farSend : Option Byte
  threshold : Option Byte
  loopTimeout : Option Byte
  deriving DecidableEq, Repr

/-- The two management ports: M (SPI) and S (I2C). -/
inductive MPortId where
  | m
  | s
  deriving DecidableEq, Repr

/-- The bus over which a request is written: port M's SPI, or port S's I2C with the slave address
the transaction names (R171, R172). -/
inductive Via where
  | spi
  | i2c (address : BitVec 7)
  deriving DecidableEq, Repr

/-- What a command carries of a bus transaction: its first bits, or more of the one that runs. An event
that falls between two bits of a transaction stands between two commands of it (log 11). -/
inductive BusPart (α : Type) where
  | begins (a : α)
  | further (a : α)
  deriving DecidableEq, Repr

/-- What RST_RELEASE finds: the strap levels, and whether a transaction is running on the bus of port M and of
port S as RST rises (R172, R184). -/
structure Release where
  straps : BitVec 2
  busM : Bool
  busS : Bool
  deriving DecidableEq, Repr

/-- Received bits in their order, with the place of the first (R3, R11). -/
structure Examined where
  first : Place
  bits : List Bool
  deriving DecidableEq, Repr

/-- Where an expiry that falls at a system frame start is taken: before that frame start's own step
(it belongs to the coming frame start) or after it (R100, R140; log 8). -/
inductive Turn where
  | before
  | after
  deriving DecidableEq, Repr

/-- The commands, one per row of the table. -/
inductive Instr where
  -- requests, as the executor carries them out (R179)
  | connect (q : ConnectReq)
  | modify (q : ModifyReq)
  | retire (id : Half) (expected : Byte)
  | hold (id : Half) (expected : Byte)
  | release (id : Half) (expected : Byte)
  | query (id : Half)
  | find (port slot direction : Byte)
  | nextRecord (start : Half)
  | protect (q : ProtectReq)
  | unprotect (id : Half) (expected : Byte)
  | switch (id : Half) (expected : Byte) (command : Byte)
  | portSet (q : PortSetReq)
  | portQuery (port : Byte)
  | portClearCounts (port : Byte)
  | portLoop (port command : Byte)
  | portSendCode (port code : Byte) (count : Half)
  | refSelect (selection port : Byte)
  | attention
  | attnEnable (m s : Option Byte)
  | deviceQuery
  | deviceReset
  -- management port transactions: after the operation byte or the address, the bits shifted in of a write,
  -- the number of bits shifted out of a read (R171); of LAST_OPERATION_SET, the data bytes of the write
  | writeRequest (via : Via) (bits : BusPart (List Bool))
  | writeTransactionEnd (p : MPortId)
  | readResponse (count : BusPart Nat)
  | readResponseEnd (p : MPortId)
  | readStatus (count : BusPart Nat)
  | i2cRead (address : BitVec 7) (count : BusPart Nat)
  -- the executor's other steps
  | handOver
  | responsePlaced
  -- pins
  | rstAssert
  | rstRelease (release : Release)
  | losAsserted (n : PortNo)
  | losDeasserted (n : PortNo)
  -- received line: bits in their order, of a byte all of them or a part, the rest to follow (R1)
  | candidateFound (n : PortNo) (search : Examined)
  | verifyCheck (n : PortNo) (nibble symbol : List Bool)
  | alignedFrameReceived (n : PortNo) (moment : Nat) (nibble symbol : List Bool)
  | frameWriteComplete (n : PortNo) (bits : List Bool)
  | allOnesPeriod (n : PortNo) (period : Examined)
  -- timing
  | sfrMark (moment : Nat)
  | oscillatorFrameStart
  | markWindowClose
  | goodMarkTimeout
  | supervisionIntervalExpiry (turn : Turn)
  | waitToRestoreExpiry (turn : Turn)
  | slipPeriodEnd (turn : Turn)
  | loopTimerExpiry (turn : Turn)
  | sendCodeBurstEnd (n : PortNo)
  | slipBufferSlotWritten (n : PortNo) (bits : List Bool)
  | lastOperationSet (address : BitVec 7) (data : List Byte)
  deriving DecidableEq, Repr

end Sys2Proof
end

