-- ==== Sys2Proof/WellFormed.lean ====
section
/-! DEFINITION. Which commands can be: a CONNECT must fit a request frame, LAST_OPERATION_SET is the I2C
write whose first data byte is not the WRITE_REQUEST operation, and received bits are one byte's at most. Every other command is well formed by
its types. -/

namespace Sys2Proof

/-- The parameter bytes a CONNECT takes in its frame (R189). -/
def ConnectReq.length (q : ConnectReq) : Nat :=
  10 + 2 * q.dests.length + (if q.code.isSome then 1 else 0) + (if q.profile.isSome then 2 else 0)

/-- Well-formedness of a command (R173: at most 29 parameter bytes; R172: first data byte 0x01 is
WRITE_REQUEST's own row; R1, R2: four bits of a nibble, eight of a slot). -/
def Instr.wf : Instr → Bool
  | .connect q => decide (q.length ≤ Config.maxParams)
  | .lastOperationSet _ data => decide (data.head? ≠ some 0x01)
  | .modify _ | .retire _ _ | .hold _ _ | .release _ _ | .query _ | .find _ _ _ | .nextRecord _ => true
  | .protect _ | .unprotect _ _ | .switch _ _ _ => true
  | .portSet _ | .portQuery _ | .portClearCounts _ | .portLoop _ _ | .portSendCode _ _ _ => true
  | .refSelect _ _ | .attention | .attnEnable _ _ | .deviceQuery | .deviceReset => true
  | .writeRequest _ _ | .writeTransactionEnd _ | .readResponse _ | .readResponseEnd _ => true
  | .readStatus _ | .i2cRead _ _ | .handOver | .responsePlaced => true
  | .rstAssert | .rstRelease _ | .losAsserted _ | .losDeasserted _ => true
  | .verifyCheck _ nibble symbol | .alignedFrameReceived _ _ nibble symbol =>
    decide (nibble.length ≤ 4 ∧ symbol.length ≤ 4)
  | .frameWriteComplete _ bits | .slipBufferSlotWritten _ bits => decide (bits.length ≤ 8)
  | .candidateFound _ _ | .allOnesPeriod _ _ => true
  | .sfrMark _ | .oscillatorFrameStart | .markWindowClose | .goodMarkTimeout => true
  | .supervisionIntervalExpiry _ | .waitToRestoreExpiry _ | .slipPeriodEnd _ | .loopTimerExpiry _ => true
  | .sendCodeBurstEnd _ => true

end Sys2Proof
end

