-- ==== Sys2Proof/Decode.lean ====
section
/-! DEFINITION. `decodeTableWord` (the table gives no row any bits), and the request frames: the
parser of a complete frame's parameters, with the length check of R180 and the layouts of R189, and
the encoder written from the same layouts. -/

namespace Sys2Proof

/-- The table gives no row any bits, so no word spells a command. -/
def decodeTableWord (_nbits _w : Nat) : Option Instr := none

/-! ### Fields of several bytes, high byte first (R188) -/

def half (hi lo : Byte) : Half := hi ++ lo

def halfBytes (x : Half) : List Byte := [x.extractLsb' 8 8, x.extractLsb' 0 8]

def wordOf (a b c d : Byte) : BitVec 32 := a ++ b ++ c ++ d

def wordBytes (x : BitVec 32) : List Byte :=
  [x.extractLsb' 24 8, x.extractLsb' 16 8, x.extractLsb' 8 8, x.extractLsb' 0 8]

/-! ### Reading parameters from the front of a list -/

/-- An optional one-byte field: it takes no byte when its indicator is clear (R188). -/
def takeByte (present : Bool) (r : List Byte) : Option (Option Byte × List Byte) :=
  match present, r with
  | false, r => some (none, r)
  | true, b :: t => some (some b, t)
  | true, [] => none

def takeEnd (present : Bool) (r : List Byte) : Option (Option RawEnd × List Byte) :=
  match present, r with
  | false, r => some (none, r)
  | true, p :: f :: t => some (some ⟨p, f⟩, t)
  | true, _ => none

def takeLabel (present : Bool) (r : List Byte) : Option (Option Label × List Byte) :=
  match present, r with
  | false, r => some (none, r)
  | true, a :: b :: c :: d :: t => some (some (wordOf a b c d), t)
  | true, _ => none

def takePair (present : Bool) (r : List Byte) : Option (Option (Byte × Byte) × List Byte) :=
  match present, r with
  | false, r => some (none, r)
  | true, a :: b :: t => some (some (a, b), t)
  | true, _ => none

def takeEnds : Nat → List Byte → Option (List RawEnd × List Byte)
  | 0, r => some ([], r)
  | n + 1, p :: f :: r => (takeEnds n r).map fun x => (⟨p, f⟩ :: x.1, x.2)
  | _ + 1, _ => none

/-! ### The layouts of R189 -/

def parseConnect : List Byte → Option Instr
  | kind :: width :: flags :: sp :: sf :: count :: r =>
    (takeEnds count.toNat r).bind fun dests =>
    (takeLabel true dests.2).bind fun label =>
    (takeByte flags[0] label.2).bind fun code =>
    (takePair flags[1] code.2).bind fun profile =>
    match profile.2, label.1 with
    | [], some l => some (.connect ⟨kind, width, ⟨sp, sf⟩, dests.1, l, code.1, profile.1⟩)
    | _, _ => none
  | _ => none

def parseModify : List Byte → Option Instr
  | hi :: lo :: expected :: mask :: r =>
    (takeLabel mask[0] r).bind fun label =>
    (takeByte mask[1] label.2).bind fun code =>
    (takeByte mask[2] code.2).bind fun holdOff =>
    (takeByte mask[3] holdOff.2).bind fun clearTime =>
    (takeEnd mask[4] clearTime.2).bind fun add =>
    (takeByte mask[5] add.2).bind fun remove =>
    match remove.2 with
    | [] => some (.modify ⟨half hi lo, expected, label.1, code.1, holdOff.1, clearTime.1, add.1, remove.1⟩)
    | _ :: _ => none
  | _ => none

def parseProtect : List Byte → Option Instr
  | [hi, lo, expected, sp, sf, mode] => some (.protect ⟨half hi lo, expected, ⟨sp, sf⟩, mode, none⟩)
  | [hi, lo, expected, sp, sf, mode, wtr] =>
    some (.protect ⟨half hi lo, expected, ⟨sp, sf⟩, mode, some wtr⟩)
  | _ => none

def parsePortSet : List Byte → Option Instr
  | port :: mask :: r =>
    (takeByte mask[0] r).bind fun enable =>
    (takeByte mask[1] enable.2).bind fun idleCode =>
    (takeByte mask[2] idleCode.2).bind fun codeResponse =>
    (takeByte mask[3] codeResponse.2).bind fun farSend =>
    (takeByte mask[4] farSend.2).bind fun threshold =>
    (takeByte mask[5] threshold.2).bind fun loopTimeout =>
    match loopTimeout.2 with
    | [] => some (.portSet ⟨port, enable.1, idleCode.1, codeResponse.1, farSend.1, threshold.1, loopTimeout.1⟩)
    | _ :: _ => none
  | _ => none

def parseAttnEnable : List Byte → Option Instr
  | mask :: r =>
    (takeByte mask[0] r).bind fun m =>
    (takeByte mask[1] m.2).bind fun s =>
    match s.2 with
    | [] => some (.attnEnable m.1 s.1)
    | _ :: _ => none
  | _ => none

/-- An id and an expected revision, the layout of RETIRE, HOLD, RELEASE and UNPROTECT. -/
def parseIdRevision (make : Half → Byte → Instr) : List Byte → Option Instr
  | [hi, lo, expected] => some (make (half hi lo) expected)
  | _ => none

def parseId (make : Half → Instr) : List Byte → Option Instr
  | [hi, lo] => some (make (half hi lo))
  | _ => none

def parseSwitch : List Byte → Option Instr
  | [hi, lo, expected, command] => some (.switch (half hi lo) expected command)
  | _ => none

def parseFind : List Byte → Option Instr
  | [port, slot, direction] => some (.find port slot direction)
  | _ => none

def parsePort (make : Byte → Instr) : List Byte → Option Instr
  | [port] => some (make port)
  | _ => none

def parsePortLoop : List Byte → Option Instr
  | [port, command] => some (.portLoop port command)
  | _ => none

def parsePortSendCode : List Byte → Option Instr
  | [port, code, hi, lo] => some (.portSendCode port code (half hi lo))
  | _ => none

def parseRefSelect : List Byte → Option Instr
  | [selection, port] => some (.refSelect selection port)
  | _ => none

def parseNone (i : Instr) : List Byte → Option Instr
  | [] => some i
  | _ => none

/-- The request that a code and its parameter bytes spell (R188 codes, R189 layouts); `none` where
the code is unknown or the length is not one the layout allows, the BAD_REQUEST of R180. -/
def parseParams (code : Byte) (params : List Byte) : Option Instr :=
  match code.toNat with
  | 0x10 => parseConnect params
  | 0x11 => parseModify params
  | 0x12 => parseIdRevision .retire params
  | 0x13 => parseIdRevision .hold params
  | 0x14 => parseIdRevision .release params
  | 0x15 => parseId .query params
  | 0x16 => parseFind params
  | 0x17 => parseId .nextRecord params
  | 0x20 => parseProtect params
  | 0x21 => parseIdRevision .unprotect params
  | 0x22 => parseSwitch params
  | 0x30 => parsePortSet params
  | 0x31 => parsePort .portQuery params
  | 0x32 => parsePort .portClearCounts params
  | 0x33 => parsePortLoop params
  | 0x34 => parsePortSendCode params
  | 0x35 => parseRefSelect params
  | 0x40 => parseNone .attention params
  | 0x41 => parseAttnEnable params
  | 0x50 => parseNone .deviceQuery params
  | 0x5A => parseNone .deviceReset params
  | _ => none

/-- The request of a complete frame, code, tag, length and parameters (R173, R188); a declared
length above 29 is a BAD_REQUEST (R180). -/
def parseFrame : List Byte → Option Instr
  | code :: _tag :: length :: params =>
    if length.toNat ≤ Config.maxParams then parseParams code params else none
  | _ => none

/-! ### The encoder -/

/-- The byte with bit k set where the k-th indicator is set. -/
def maskByte (bits : List Bool) : Byte :=
  BitVec.ofNat 8 (bits.foldr (fun b acc => 2 * acc + b.toNat) 0)

def optBytes (x : Option Byte) : List Byte := x.toList

def endBytes (e : RawEnd) : List Byte := [e.port, e.first]

/-- The code and the parameter bytes of a request (R188, R189); `none` for the other commands. -/
def encodeParams : Instr → Option (Byte × List Byte)
  | .connect q => some (0x10,
      [q.kind, q.width, maskByte [q.code.isSome, q.profile.isSome], q.source.port, q.source.first,
        BitVec.ofNat 8 q.dests.length] ++ q.dests.flatMap endBytes ++ wordBytes q.label ++
        optBytes q.code ++ (q.profile.elim [] fun p => [p.1, p.2]))
  | .modify q => some (0x11,
      halfBytes q.id ++ [q.expected, maskByte [q.label.isSome, q.code.isSome, q.holdOff.isSome,
        q.clearTime.isSome, q.add.isSome, q.remove.isSome]] ++ q.label.elim [] wordBytes ++
        optBytes q.code ++ optBytes q.holdOff ++ optBytes q.clearTime ++ q.add.elim [] endBytes ++
        optBytes q.remove)
  | .retire id e => some (0x12, halfBytes id ++ [e])
  | .hold id e => some (0x13, halfBytes id ++ [e])
  | .release id e => some (0x14, halfBytes id ++ [e])
  | .query id => some (0x15, halfBytes id)
  | .find p sl d => some (0x16, [p, sl, d])
  | .nextRecord id => some (0x17, halfBytes id)
  | .protect q => some (0x20,
      halfBytes q.id ++ [q.expected, q.standby.port, q.standby.first, q.mode] ++ optBytes q.wtr)
  | .unprotect id e => some (0x21, halfBytes id ++ [e])
  | .switch id e c => some (0x22, halfBytes id ++ [e, c])
  | .portSet q => some (0x30,
      [q.port, maskByte [q.enable.isSome, q.idleCode.isSome, q.codeResponse.isSome, q.farSend.isSome,
        q.threshold.isSome, q.loopTimeout.isSome]] ++ optBytes q.enable ++ optBytes q.idleCode ++
        optBytes q.codeResponse ++ optBytes q.farSend ++ optBytes q.threshold ++ optBytes q.loopTimeout)
  | .portQuery p => some (0x31, [p])
  | .portClearCounts p => some (0x32, [p])
  | .portLoop p c => some (0x33, [p, c])
  | .portSendCode p c k => some (0x34, [p, c] ++ halfBytes k)
  | .refSelect sel p => some (0x35, [sel, p])
  | .attention => some (0x40, [])
  | .attnEnable m s => some (0x41, [maskByte [m.isSome, s.isSome]] ++ optBytes m ++ optBytes s)
  | .deviceQuery => some (0x50, [])
  | .deviceReset => some (0x5A, [])
  | .writeRequest _ _ | .writeTransactionEnd _ | .readResponse _ | .readResponseEnd _ => none
  | .readStatus _ | .i2cRead _ _ | .handOver | .responsePlaced => none
  | .rstAssert | .rstRelease _ | .losAsserted _ | .losDeasserted _ => none
  | .candidateFound _ _ | .verifyCheck _ _ _ | .alignedFrameReceived _ _ _ _ => none
  | .frameWriteComplete _ _ | .allOnesPeriod _ _ => none
  | .sfrMark _ | .oscillatorFrameStart | .markWindowClose | .goodMarkTimeout => none
  | .supervisionIntervalExpiry _ | .waitToRestoreExpiry _ | .slipPeriodEnd _ | .loopTimerExpiry _ => none
  | .sendCodeBurstEnd _ | .slipBufferSlotWritten _ _ | .lastOperationSet _ _ => none

/-- The request frame of a command, with a tag: code, tag, length, parameters (R188). -/
def encodeFrame (tag : Byte) (i : Instr) : Option (List Byte) :=
  (encodeParams i).map fun x => x.1 :: tag :: BitVec.ofNat 8 x.2.length :: x.2

end Sys2Proof
end

