-- ==== Sys2Proof/Machine/Bits.lean ====
section
/-! DEFINITION. Bytes and frames as the bits of a line or a bus (R1, R171): the order of the bits, the
search for the alignment pattern (R2, R3), and the whole bytes of a bus transaction. -/

namespace Sys2Proof.Machine

/-- The bits of a byte in the order they are sent, the most significant first (R1, R171). -/
def byteBits (b : Byte) : List Bool := (List.range 8).map b.getMsbD

/-- The byte that bits spell in the order they are received, the most significant first (R1, R171). -/
def bitsByte (l : List Bool) : Byte := BitVec.ofNat 8 (l.foldl (fun v b => 2 * v + b.toNat) 0)

/-- The nibble that four bits spell in the order they are received (R1, R2). -/
def bitsNibble (l : List Bool) : Nibble := BitVec.ofNat 4 (l.foldl (fun v b => 2 * v + b.toNat) 0)

/-- The bits of slots sent one after another; of a frame, slot 0 first, its 288 bits (R1). -/
def slotsBits (slots : List Byte) : List Bool := slots.flatMap byteBits

/-- A frame period of ones (R11, R15). -/
def onesBits : List Bool := List.replicate Config.frameBits true

/-- Binary 1011, the alignment nibble, in the order it is sent (R2). -/
def alignmentBits : List Bool := [true, false, true, true]

/-- The first position at which four bits in order of reception are binary 1011: how many bits before
it were examined without a match, or none where no window matches (R3). -/
def firstMatch : List Bool → Option Nat
  | [] => none
  | b :: t => if (b :: t).take 4 = alignmentBits then some 0 else (firstMatch t).map (· + 1)

/-- The latest three of some bits: with the next bit they are a window of the search (R3). -/
def lastThree (l : List Bool) : List Bool := l.drop (l.length - 3)

/-- The whole bytes of the bits that a bus transaction shifts in; the bits of a byte left unfinished are
discarded (R171). -/
def wholeBytes : List Bool → List Byte
  | b7 :: b6 :: b5 :: b4 :: b3 :: b2 :: b1 :: b0 :: rest =>
    bitsByte [b7, b6, b5, b4, b3, b2, b1, b0] :: wholeBytes rest
  | _ => []

/-- The bits of the byte that is left unfinished (R171). -/
def unfinishedBits (l : List Bool) : List Bool := l.drop (8 * (l.length / 8))

/-- How many bytes begin with `more` bits of a transaction of which `had` bits have been clocked: a byte
begins with its first bit (R177). -/
def bytesBegun (had more : Nat) : Nat := (had + more + 7) / 8 - (had + 7) / 8

end Sys2Proof.Machine
end

