-- ==== Sys2Proof/Machine/Table.lean ====
section
/-! DEFINITION. Sparse tables: a list of (key, value) pairs with rising keys. They hold the
connection records, the slot map, the installed selections and the bound contexts; a key that is
not listed reads as FREE, none, IDLE or free (log 16). -/

namespace Sys2Proof.Machine

/-- A sparse table; the canonical form is `Table.wf`. -/
abbrev Table (α : Type) := List (Nat × α)

namespace Table

variable {α : Type}

/-- The value at a key. -/
def get : Table α → Nat → Option α
  | [], _ => none
  | (k', v) :: t, k => if k' = k then some v else get t k

/-- The table with a value at a key. -/
def put : Table α → Nat → α → Table α
  | [], k, v => [(k, v)]
  | (k', v') :: t, k, v =>
    if k < k' then (k, v) :: (k', v') :: t
    else if k = k' then (k, v) :: t
    else (k', v') :: put t k v

/-- The table without the entry of a key. -/
def del (t : Table α) (k : Nat) : Table α := t.filter fun e => e.1 ≠ k

/-- The table without the entries whose value is `v`. -/
def delValue [DecidableEq α] (t : Table α) (v : α) : Table α := t.filter fun e => e.2 ≠ v

/-- The table without the entries of several keys. -/
def delKeys (t : Table α) (ks : List Nat) : Table α := t.filter fun e => e.1 ∉ ks

/-- The table with one value at several keys. -/
def putKeys (t : Table α) (ks : List Nat) (v : α) : Table α := ks.foldl (fun t k => t.put k v) t

/-- The table with every value mapped. -/
def mapValues (t : Table α) (f : Nat → α → α) : Table α := t.map fun e => (e.1, f e.1 e.2)

/-- The listed keys, rising. -/
def keys (t : Table α) : List Nat := t.map (·.1)

/-- The lowest key below `bound` that is not listed. -/
def lowestFree (t : Table α) (bound : Nat) : Option Nat :=
  (List.range bound).find? fun k => (t.get k).isNone

/-- The canonical form: the keys rise strictly. -/
abbrev wf (t : Table α) : Prop := t.Pairwise fun a b => a.1 < b.1

end Table

end Sys2Proof.Machine
end

