-- ==== Sys2Proof/Machine/State.lean ====
section
/-! DEFINITION. The state of the EB1636 as plain data: every piece of state the spec gives the part
(INVENTORY.md lists them with their rules), the queue of waiting commands, and the state after
power-on with RST released. -/

namespace Sys2Proof.Machine

/-! ### Why a step could stop -/

/-- The spec names no event that stops the part (INVENTORY.md, Faults), so there is no fault. -/
inductive Fault : Type
  deriving DecidableEq, Repr

/-- Refusals. -/
inductive Refusal where
  /-- An arm of `exec` whose command has no meaning yet, by its row's mnemonic. Raised by no arm
  of this model; safe: it stops where the part goes on. -/
  | notModelled (mnemonic : String)
  deriving DecidableEq, Repr

/-! ### Line ports -/

/-- The states of the receive framer (01, 1.2). -/
inductive FramerState where
  | search
  | verify
  | aligned
  deriving DecidableEq, Repr

/-- The defect set of a port (R9 to R13). -/
structure Defects where
  off : Bool
  sigLost : Bool
  aisIn : Bool
  unframed : Bool
  slipExcess : Bool
  deriving DecidableEq, Repr

/-- The source defect, the highest-ranked member of the defect set (R14). -/
inductive SourceDefect where
  | off
  | sigLost
  | aisIn
  | unframed
  | slipExcess
  | none
  deriving DecidableEq, Repr

/-- The configuration PORT_SET sets (R19). -/
structure PortConfig where
  enable : Bool
  idleCode : Byte
  codeResponse : Bool
  farSend : Bool
  threshold : Byte
  loopTimeout : Byte
  deriving DecidableEq, Repr

/-- The 288-bit period in progress of a stream that is not aligned (R11). -/
structure OnesPeriod where
  /-- the place of the next bit; `none`: that of the next bit received -/
  next : Option Place
  /-- its bits received so far -/
  count : Nat
  /-- no zero among them -/
  ones : Bool
  deriving DecidableEq, Repr

/-- The receive framer (R3 to R8, R11). -/
structure Framer where
  state : FramerState
  /-- candidate position in VERIFY, frame position in ALIGNED -/
  place : Place
  /-- matches of the candidate so far, 0..2 in VERIFY -/
  verified : Nat
  /-- in SEARCH, the place of the next bit to examine; `none`: that of the next bit received (R3 to R5) -/
  next : Option Place
  /-- in SEARCH, the latest bits examined, three at most, which begin the next window (R3 to R5) -/
  recent : List Bool
  /-- in VERIFY and ALIGNED, the bits received of the overhead byte in progress (R2, R4, R5) -/
  overhead : List Bool
  erroredRun : Nat
  erroredCount : Nat
  allOnesRun : Nat
  period : OnesPeriod
  deriving DecidableEq, Repr

/-- A frame: 36 slots, slot 0 first (R1). -/
abbrev Frame := List Byte

/-- A slip buffer (02). The fill is computed (`SlipBuffer.fill`). -/
structure SlipBuffer where
  waiting : List Frame
  /-- the slots written of the frame being written, where there is one (R31) -/
  writing : Option (List Byte)
  /-- the bits received of its slot in progress (R1, R31) -/
  slot : List Bool
  read : Frame
  periodSlips : Nat
  slips : Nat
  deriving DecidableEq, Repr

/-- The loop states of a port (R150). -/
inductive LoopState where
  | off
  | returnHost
  | returnCode
  | inwardHost
  deriving DecidableEq, Repr

/-- The two loop codes (R2). -/
inductive Code where
  | loopUp
  | loopDown
  deriving DecidableEq, Repr

/-- A maintenance symbol as the maintenance unit counts it (R146). -/
inductive Sym where
  | quiet
  | loopUp
  | loopDown
  | farAlarm
  deriving DecidableEq, Repr

/-- A frame-counting timer's mark: nothing; set at the coming frame start, which does not count it;
brought to its end by the last frame start, its expiry not yet taken (log 8, log 9). -/
inductive TimerMark where
  | plain
  | fresh
  | due
  deriving DecidableEq, Repr

/-- The maintenance unit of a port (08). -/
structure Maint where
  runSym : Option Sym
  runLength : Nat
  recognized : Bool
  absence : Nat
  farAlarm : Bool
  lastCode : Option Code
  loop : LoopState
  loopTimer : Nat
  loopMark : TimerMark
  burstCode : Code
  burstLeft : Nat
  /-- from acceptance to the end of the burst's last frame (R159, log 14) -/
  burstRunning : Bool
  deriving DecidableEq, Repr

/-- A line port with its slip buffer and its maintenance unit. -/
structure Port where
  config : PortConfig
  framer : Framer
  defects : Defects
  /-- LOS_n is asserted (low) -/
  los : Bool
  /-- transmit overhead symbol (R16) -/
  txSymbol : Nibble
  /-- slots 1 to 35 of the transmit frame in progress; `none`: data held at ones (R15) -/
  txPayload : Option (List Byte)
  /-- the 288 bits sent before the first bit of the system frame in progress: the whole frame before
  it, or the end of it that was sent where a re-acquisition cut it (R1, R15, R27) -/
  txLast : List Bool
  /-- the place, in the counting of `framer.place`, of the first bit of the system frame in progress
  (R3, R27, R103, log 10) -/
  txPlace : Place
  /-- where the first bit of the frame being received lies in `txLast` and the system frame in progress
  taken together, 0..575; `none`: before them (R27, R103, log 10) -/
  rxFirst : Option Nat
  slip : SlipBuffer
  maint : Maint
  deriving DecidableEq, Repr

/-! ### Reference monitor and frame counts -/

/-- The reference selection (R29). -/
inductive RefSelection where
  | external
  | port (n : PortNo)
  deriving DecidableEq, Repr

/-- The reference states. -/
inductive RefState where
  | refOk
  | freewheel
  deriving DecidableEq, Repr

/-- The reference monitor; moments in nanoseconds from the latest release of RST (log 3). -/
structure RefMonitor where
  selection : RefSelection
  state : RefState
  point : Nat
  /-- the last system frame start, from which FREEWHEEL measures (R25, R26) -/
  lastStart : Nat
  /-- in REF_OK: the oscillator has made a start and the mark window is still open (R24) -/
  windowOpen : Bool
  missed : Nat
  good : Nat
  lastMark : Option Nat
  deriving DecidableEq, Repr

/-- The expiry of a count of system frame starts: none standing, due from the last frame start, or
taken already for the coming one (R100, log 8). -/
inductive Expiry where
  | idle
  | due
  | taken
  deriving DecidableEq, Repr

/-- A count of system frame starts and its expiry. -/
structure Period where
  count : Nat
  expiry : Expiry
  deriving DecidableEq, Repr

/-! ### Connection table -/

/-- The non-FREE record states (R50); a FREE record is not listed. -/
inductive RecState where
  | staged
  | active
  | held
  | retiring
  deriving DecidableEq, Repr

inductive Kind where
  | simplex
  | duplex
  | branch
  deriving DecidableEq, Repr

inductive Dir where
  | rx
  | tx
  deriving DecidableEq, Repr

/-- An end: port and first slot, 1..35 (R40). -/
structure End where
  port : PortNo
  first : Nat
  deriving DecidableEq, Repr

/-- A (port, slot, direction) of the slot map (R58). -/
structure Triple where
  port : PortNo
  slot : Nat
  dir : Dir
  deriving DecidableEq, Repr

/-- The entry states of a destination (R43). -/
inductive EntryState where
  | inService
  | joining
  | leaving
  deriving DecidableEq, Repr

structure Dest where
  dest : End
  state : EntryState
  deriving DecidableEq, Repr

inductive HealthState where
  | clear
  | pendingFail
  | failed
  | pendingClear
  deriving DecidableEq, Repr

/-- The health of a direction: its state and its timer remaining, in supervision intervals. -/
structure Health where
  state : HealthState
  timer : Nat
  deriving DecidableEq, Repr

/-- A non-FREE connection record (R38 to R54). -/
structure Record where
  state : RecState
  kind : Kind
  width : Nat
  source : End
  dests : List Dest
  standby : Option End
  leaving : Option End
  label : Label
  code : Byte
  holdOff : Byte
  clearTime : Byte
  revision : Byte
  healthAB : Health
  /-- DUPLEX records -/
  healthBA : Option Health
  /-- records with a standby source -/
  healthS : Option Health
  pending : Bool
  context : Option Nat
  handOverDue : Bool
  deriving DecidableEq, Repr

/-- An installed selection (R90). -/
inductive Selection where
  | idle
  | source (port : PortNo) (slot : Nat)
  | cond (byte : Byte)
  deriving DecidableEq, Repr

/-! ### Protection contexts -/

inductive Mode where
  | revertive
  | nonRevertive
  deriving DecidableEq, Repr

/-- The request states of a context (R130). -/
inductive ReqState where
  | none
  | restoreWait
  | manualWorking
  | manualStandby
  | failWorking
  | forceStandby
  | failStandby
  | holdWorking
  deriving DecidableEq, Repr

inductive Selected where
  | working
  | standby
  deriving DecidableEq, Repr

/-- A bound protection context (R125). -/
structure Context where
  record : Nat
  mode : Mode
  wtrTime : Byte
  request : ReqState
  selected : Selected
  wtrLeft : Nat
  wtrMark : TimerMark
  switches : Nat
  deriving DecidableEq, Repr

/-! ### Attention list -/

inductive Subject where
  | record (id : Nat)
  | port (n : PortNo)
  deriving DecidableEq, Repr

/-- The kinds of change (09). -/
inductive Change where
  | health
  | select
  | state
  | portDefect
  | farAlarm
  | code
  | loop
  deriving DecidableEq, Repr

/-- A change summary: which kinds it holds (R162). -/
structure Summary where
  health : Bool
  select : Bool
  state : Bool
  portDefect : Bool
  farAlarm : Bool
  code : Bool
  loop : Bool
  deriving DecidableEq, Repr

structure Entry where
  subject : Subject
  summary : Summary
  deriving DecidableEq, Repr

/-! ### Management ports and executor -/

inductive TxnState where
  | idle
  | loading
  | waiting
  | executing
  | answered
  deriving DecidableEq, Repr

/-- The bus transaction running on a management port. -/
inductive Bus where
  | free
  /-- a WRITE_REQUEST, taken or refused, and the bits shifted in of its unfinished byte (R171, R173, R175) -/
  | writing (taken : Bool) (shift : List Bool)
  /-- a read of the response, begun in ANSWERED or not, and the bits it has sent (R176) -/
  | reading (live : Bool) (count : Nat)
  /-- status copies being read, and the bits sent of them (R172, R177) -/
  | status (count : Nat)
  /-- a transaction that was running as RST rose, which is not taken (R184) -/
  | missed
  deriving DecidableEq, Repr

/-- A management port (10). -/
structure MPort where
  txn : TxnState
  request : List Byte
  response : List Byte
  refused : Bool
  bus : Bus
  /-- the bytes the part began to send in the latest transaction, after its operation byte or address (R171,
  R172, R176, R177; log 11) -/
  sent : List Byte
  deriving DecidableEq, Repr

/-- Port S's last operation (R172). -/
inductive LastOp where
  | writeRequest
  | readResponse
  | readStatus
  deriving DecidableEq, Repr

/-- The status codes (R182). -/
inductive Status where
  | ok
  | badRequest
  | badParam
  | notFound
  | wrongState
  | slotTaken
  | tableFull
  | noContext
  | stale
  | empty
  | aborted
  deriving DecidableEq, Repr

/-- What a response says after its echoes: the status and the data (R181). -/
structure Answer where
  status : Status
  data : List Byte
  deriving DecidableEq, Repr

/-- The request in execution (R179): the port it came from, its code and tag, the request itself
(none where the frame is a BAD_REQUEST), and its answer once it is carried out (log 15). -/
structure Execution where
  port : MPortId
  code : Byte
  tag : Byte
  request : Option Instr
  answer : Option Answer
  deriving DecidableEq, Repr

/-! ### The whole -/

/-- The state of the part and the queue of waiting commands. -/
structure State where
  /-- RST is held low -/
  rst : Bool
  /-- the latched ADR1, ADR0 -/
  straps : BitVec 2
  ports : Vector Port 16
  ref : RefMonitor
  interval : Period
  slipPeriod : Period
  /-- keys are record ids -/
  records : Table Record
  /-- keys are `Triple.key`, values record ids -/
  slotMap : Table Nat
  /-- keys are `txKey`; an absent entry is IDLE -/
  selections : Table Selection
  /-- keys are context numbers -/
  contexts : Table Context
  attention : List Entry
  enableM : Bool
  enableS : Bool
  portM : MPort
  portS : MPort
  lastOp : LastOp
  /-- the acknowledges port S has given in the latest transfer on its bus: to its address, then to each data
  byte written (R172, R175) -/
  acks : Nat
  executor : Option Execution
  lastServed : MPortId
  /-- commands waiting, first in first out -/
  pending : List Instr
  deriving DecidableEq, Repr

/-! ### Power-on -/

/-- A frame of all ones (R34, R35). -/
def Frame.ones : Frame := List.replicate Config.frameSlots 0xFF

/-- A period that begins with the next bit (R11). -/
def OnesPeriod.start : OnesPeriod := { next := none, count := 0, ones := true }

/-- The maintenance unit after power-on (R161); the burst code is DESIGN CHOICE, log 6. -/
def Maint.powerOn : Maint :=
  { runSym := none, runLength := 0, recognized := false, absence := 0, farAlarm := false,
    lastCode := none, loop := .off, loopTimer := 0, loopMark := .plain,
    burstCode := .loopUp, burstLeft := 0, burstRunning := false }

/-- A slip buffer after power-on (R37). -/
def SlipBuffer.powerOn : SlipBuffer :=
  { waiting := [], writing := none, slot := [], read := Frame.ones, periodSlips := 0, slips := 0 }

/-- A line port after power-on (R22), with the level of its LOS_n pin. -/
def Port.powerOn (los : Bool) : Port :=
  { config := { enable := false, idleCode := 0xD5, codeResponse := false, farSend := true,
                threshold := 8, loopTimeout := 0 },
    framer := { state := .search, place := 0, verified := 0, next := none, recent := [], overhead := [],
                erroredRun := 0, erroredCount := 0, allOnesRun := 0, period := OnesPeriod.start },
    defects := { off := true, sigLost := false, aisIn := false, unframed := false, slipExcess := false },
    los := los, txSymbol := 0, txPayload := none, txLast := onesBits, txPlace := 0, rxFirst := none,
    slip := SlipBuffer.powerOn, maint := Maint.powerOn }

/-- The reference monitor after power-on (R30). -/
def RefMonitor.powerOn : RefMonitor :=
  { selection := .external, state := .freewheel, point := 0, lastStart := 0, windowOpen := false,
    missed := 0, good := 0, lastMark := none }

/-- A management port after power-on (R184). -/
def MPort.powerOn : MPort :=
  { txn := .idle, request := [], response := [], refused := false, bus := .free, sent := [] }

/-- The part after power-on, RST released, straps low and no LOS_n asserted (R187; log 5). -/
def State.reset : State :=
  { rst := false, straps := 0,
    ports := Vector.replicate 16 (Port.powerOn false),
    ref := RefMonitor.powerOn,
    interval := { count := 0, expiry := .idle },
    slipPeriod := { count := 0, expiry := .idle },
    records := [], slotMap := [], selections := [], contexts := [],
    attention := [], enableM := false, enableS := false,
    portM := MPort.powerOn, portS := MPort.powerOn, lastOp := .readStatus, acks := 0,
    executor := none, lastServed := .s, pending := [] }

end Sys2Proof.Machine
end

