-- ==== Sys2Proof/Machine/Operands.lean ====
section
/-! DEFINITION. Operand forms: port numbers, ends and triples, the checks of request parameters
(R40 to R42, R67), and the triples a record holds (R41). -/

namespace Sys2Proof.Machine

/-- A port number byte, 0..15. -/
def portNo (b : Byte) : Option PortNo :=
  if h : b.toNat < 16 then some ⟨b.toNat, h⟩ else none

/-- A field that is 0 or 1. -/
def bit? (b : Byte) : Option Bool :=
  if b = 0 then some false else if b = 1 then some true else none

/-- An optional field that is 0 or 1 when present: `none` where it is present with another value. -/
def optBit? : Option Byte → Option (Option Bool)
  | none => some none
  | some b => (bit? b).map some

/-- The enumeration of kinds (R188). -/
def kind? (b : Byte) : Option Kind :=
  if b = 0 then some .simplex else if b = 1 then some .duplex else if b = 2 then some .branch else none

/-- The enumeration of modes (R188). -/
def mode? (b : Byte) : Option Mode :=
  if b = 0 then some .revertive else if b = 1 then some .nonRevertive else none

/-- The enumeration of directions (R188). -/
def dir? (b : Byte) : Option Dir :=
  if b = 0 then some .rx else if b = 1 then some .tx else none

/-- A loop code received in a request (R158, R188). -/
def code? (b : Byte) : Option Code :=
  if b = 0x6 then some .loopUp else if b = 0x9 then some .loopDown else none

/-- The kind's destination counts (R39, R67 step 3). -/
def Kind.allowsCount : Kind → Nat → Bool
  | .simplex, n => n == 1
  | .duplex, n => n == 1
  | .branch, n => decide (2 ≤ n ∧ n ≤ 4)

/-! ### Ends and triples -/

/-- An end of a width that lies in the payload slots of a port (R40). -/
def toEnd (width : Nat) (e : RawEnd) : Option End :=
  match portNo e.port with
  | some p =>
    if 1 ≤ e.first.toNat ∧ e.first.toNat + width - 1 ≤ Config.lastSlot then some ⟨p, e.first.toNat⟩
    else none
  | none => none

/-- Every end of a list, or none where one is out of range. -/
def toEnds (width : Nat) : List RawEnd → Option (List End)
  | [] => some []
  | e :: t =>
    match toEnd width e, toEnds width t with
    | some x, some xs => some (x :: xs)
    | _, _ => none

/-- The slots an end covers, ascending (R40). -/
def End.slots (width : Nat) (e : End) : List Nat := (List.range width).map (e.first + ·)

/-- The end covers a slot of a port. -/
def End.covers (width : Nat) (e : End) (port : PortNo) (slot : Nat) : Bool :=
  decide (e.port = port ∧ e.first ≤ slot ∧ slot < e.first + width)

/-- The triples of an end in one direction, slots ascending (R41). -/
def End.triples (width : Nat) (dir : Dir) (e : End) : List Triple :=
  (e.slots width).map fun s => ⟨e.port, s, dir⟩

/-- The slot map's key of a triple. -/
def Triple.key (t : Triple) : Nat :=
  match t.dir with
  | .rx => t.port.val * Config.frameSlots + t.slot
  | .tx => 16 * Config.frameSlots + (t.port.val * Config.frameSlots + t.slot)

/-- The key of a transmit slot in the table of installed selections. -/
def txKey (port : PortNo) (slot : Nat) : Nat := port.val * Config.frameSlots + slot

/-- The transmit slots of an end, as keys of installed selections. -/
def End.txKeys (width : Nat) (e : End) : List Nat := (e.slots width).map (txKey e.port)

/-- The triples of a CONNECT in holding order (R41). -/
def connectTriples (kind : Kind) (width : Nat) (source : End) (dests : List End) : List Triple :=
  match kind with
  | .duplex =>
    source.triples width .rx ++ source.triples width .tx ++
      dests.flatMap fun d => d.triples width .rx ++ d.triples width .tx
  | .simplex | .branch => source.triples width .rx ++ dests.flatMap (End.triples width .tx)

/-- Every triple a record holds, entries in any state and a leaving standby included (R41). -/
def Record.triples (r : Record) : List Triple :=
  connectTriples r.kind r.width r.source (r.dests.map (·.dest)) ++
    (r.standby.elim [] (End.triples r.width .rx)) ++ (r.leaving.elim [] (End.triples r.width .rx))

/-- The first triple, in holding order, that the slot map gives to a record, with its holder (R61). -/
def firstHeld (map : Table Nat) : List Triple → Option (Triple × Nat)
  | [] => none
  | t :: rest =>
    match map.get t.key with
    | some id => some (t, id)
    | none => firstHeld map rest

/-- The parameters of a CONNECT that have passed R67. -/
structure ConnectPlan where
  kind : Kind
  width : Nat
  source : End
  dests : List End

/-- The value checks of R67 and the overlap check of R68: all of them answer BAD_PARAM. -/
def connectPlan (q : ConnectReq) : Option ConnectPlan :=
  let width := q.width.toNat
  match kind? q.kind, toEnd width q.source, toEnds width q.dests with
  | some kind, some source, some dests =>
    if 1 ≤ width ∧ width ≤ Config.lastSlot ∧ kind.allowsCount dests.length = true ∧
        (connectTriples kind width source dests).Nodup
    then some ⟨kind, width, source, dests⟩ else none
  | _, _, _ => none

/-- Entries that are not LEAVING (R43). -/
def Record.staying (r : Record) : List Dest := r.dests.filter fun d => d.state ≠ .leaving

end Sys2Proof.Machine
end

