-- ==== Sys2Proof/Machine/Flags.lean ====
section
/-! DEFINITION. Computed flags: the ranked source defect (R14), forced SEARCH (R8), the groups of
health (06), the far-alarm choice (R16), change summaries (R162), the attention lines (R169), the
fill of a slip buffer (R31) and the status byte (R177). -/

namespace Sys2Proof.Machine

/-- One more, stopping at a maximum ("Counters stop at their maximum value"). -/
def satSucc (max x : Nat) : Nat := if x < max then x + 1 else x

/-- The highest-ranked member of a defect set (R14). -/
def Defects.source (d : Defects) : SourceDefect :=
  if d.off then .off
  else if d.sigLost then .sigLost
  else if d.aisIn then .aisIn
  else if d.unframed then .unframed
  else if d.slipExcess then .slipExcess
  else .none

def Port.sourceDefect (p : Port) : SourceDefect := p.defects.source

/-- Forced SEARCH holds (R8). -/
def Port.forced (p : Port) : Bool := p.defects.off || p.defects.sigLost

def Port.aligned (p : Port) : Bool := p.framer.state == .aligned

/-- A RETURN loop is in force: the port's transmitting ends are looped (R83, R102). -/
def LoopState.returns : LoopState → Bool
  | .returnHost | .returnCode => true
  | .off | .inwardHost => false

/-- The slots written and not yet taken (R31). -/
def SlipBuffer.fill (b : SlipBuffer) : Nat :=
  Config.frameSlots * b.waiting.length + b.writing.elim 0 List.length

/-- The failed group of health (06): FAILED or PENDING_CLEAR. -/
def Health.bad (h : Health) : Bool :=
  match h.state with
  | .failed | .pendingClear => true
  | .clear | .pendingFail => false

/-- The health of a direction with no timer running. -/
def Health.good : Health := ⟨.clear, 0⟩

/-- The standby's health; a record without one has no standby to fail. -/
def Record.standbyBad (r : Record) : Bool := r.healthS.elim false Health.bad

/-- The source defects for which far-alarm send puts FAR_ALARM on the line (R16). -/
def SourceDefect.sendsFarAlarm : SourceDefect → Bool
  | .sigLost | .aisIn | .unframed => true
  | .off | .slipExcess | .none => false

/-- The symbols of R2, as sent. -/
def Code.nibble : Code → Nibble
  | .loopUp => 0x6
  | .loopDown => 0x9

/-- A received symbol as it is counted; any value but the four is NONE (R146). -/
def symOf (s : Nibble) : Sym :=
  if s = 0x6 then .loopUp else if s = 0x9 then .loopDown else if s = 0xE then .farAlarm else .quiet

/-- The symbol of a transmit frame, chosen at its start (R16). -/
def Port.chooseSymbol (p : Port) : Nibble :=
  if 0 < p.maint.burstLeft then p.maint.burstCode.nibble
  else if p.config.farSend && p.sourceDefect.sendsFarAlarm then 0xE
  else 0x0

/-! ### Change summaries and the attention lines -/

def Summary.empty : Summary := ⟨false, false, false, false, false, false, false⟩

def Summary.add (m : Summary) : Change → Summary
  | .health => { m with health := true }
  | .select => { m with select := true }
  | .state => { m with state := true }
  | .portDefect => { m with portDefect := true }
  | .farAlarm => { m with farAlarm := true }
  | .code => { m with code := true }
  | .loop => { m with loop := true }

/-- ATN_M is asserted (R169). -/
def State.atnM (s : State) : Bool := s.enableM && !s.attention.isEmpty

/-- ATN_S is asserted (R169). -/
def State.atnS (s : State) : Bool := s.enableS && !s.attention.isEmpty

/-! ### The status byte -/

/-- The port state's number (10, state table). -/
def TxnState.number : TxnState → Byte
  | .idle => 0
  | .loading => 1
  | .waiting => 2
  | .executing => 3
  | .answered => 4

def State.mport (s : State) : MPortId → MPort
  | .m => s.portM
  | .s => s.portS

/-- A bit of a status or flags byte. -/
def flagBit (b : Bool) (weight : Byte) : Byte := if b then weight else 0

/-- The status byte of a management port (R177, layout R188). -/
def State.statusByte (s : State) (p : MPortId) : Byte :=
  (s.mport p).txn.number + flagBit (s.mport p).refused 8 + flagBit (!s.attention.isEmpty) 16 +
    flagBit (s.ref.state == .freewheel) 32

/-- The pending-change set, ascending: the records whose pending field is yes (R94). -/
def State.pendingSet (s : State) : List Nat := Table.keys (s.records.filter fun e => e.2.pending)

end Sys2Proof.Machine
end

