-- ==== Sys2Proof/Machine/Ops.lean ====
section
/-! DEFINITION. The shared operations: posting to the attention list, a line port's own changes and
the events they set off in its neighbours, the slip buffer's operations, and the executor's
answers. -/

namespace Sys2Proof.Machine

/-! ### The attention list (R163) -/

/-- A posting: merged into the subject's entry in place, or appended at the tail (R163). -/
def postTo : List Entry → Subject → Change → List Entry
  | [], x, c => [⟨x, Summary.empty.add c⟩]
  | e :: t, x, c =>
    if e.subject = x then { e with summary := e.summary.add c } :: t else e :: postTo t x c

def State.post (s : State) (x : Subject) (c : Change) : State :=
  { s with attention := postTo s.attention x c }

def State.postIf (s : State) (b : Bool) (x : Subject) (c : Change) : State :=
  if b then s.post x c else s

/-! ### Slip buffer operations (02, 2.3) -/

/-- Recentring: one frame of ones is the only waiting frame; the read frame is kept (R34). -/
def SlipBuffer.recentre (b : SlipBuffer) : SlipBuffer :=
  { b with waiting := [Frame.ones], writing := none, slot := [] }

/-- The write side stops and a frame being written is discarded (R35). -/
def SlipBuffer.stop (b : SlipBuffer) : SlipBuffer := { b with writing := none, slot := [] }

/-- The buffer of a port that is disabled: emptied, the period slips cleared, the read frame of the
system frame in progress kept (R35). -/
def SlipBuffer.emptied (b : SlipBuffer) : SlipBuffer :=
  { b with waiting := [], writing := none, slot := [], periodSlips := 0 }

/-- One slip, counted twice over, each count stopping at its maximum (R32, R33). -/
def SlipBuffer.countSlip (b : SlipBuffer) : SlipBuffer :=
  { b with periodSlips := satSucc Config.periodSlipMax b.periodSlips,
           slips := satSucc Config.counterMax b.slips }

/-- The start of a delivered frame: the drop check, then the frame is the one being written (R31, R33). -/
def SlipBuffer.begin (b : SlipBuffer) : SlipBuffer :=
  if b.waiting.length < 2 then { b with writing := some [], slot := [] } else b.countSlip

/-- Slot 0 of the frame being written is the overhead byte, of which these bits have been received (R1,
R31). -/
def SlipBuffer.header (b : SlipBuffer) (bits : List Bool) : SlipBuffer :=
  match b.writing with
  | some [] => { b with slot := bits }
  | some (_ :: _) | none => b

/-- One of the first 35 slots of the frame being written, of which these bits have been received: with the
eighth it is written (R31). -/
def SlipBuffer.writeSlot (b : SlipBuffer) (bits : List Bool) : SlipBuffer :=
  match b.writing with
  | some w =>
    if w.length < Config.lastSlot then
      if bits.length < 8 then { b with slot := bits }
      else { b with writing := some (w ++ [bitsByte bits]), slot := [] }
    else b
  | none => b

/-- The last slot: with its eighth bit the frame joins the waiting frames as the newest (R31). -/
def SlipBuffer.complete (b : SlipBuffer) (bits : List Bool) : SlipBuffer :=
  match b.writing with
  | some w =>
    if w.length = Config.lastSlot then
      if bits.length < 8 then { b with slot := bits }
      else { b with waiting := b.waiting ++ [w ++ [bitsByte bits]], writing := none, slot := [] }
    else b
  | none => b

/-- The read side at a system frame start, on a port that is ALIGNED (R32) or not (R35). A frame once
taken is read again in a REPEAT alone, so the frame of ones that a recentring places is read in one
system frame, whichever of a frame's completion and the start is taken first: R103's "read once more" by
order is not given (DEDUCED from R31, R32 and R34, log 20). -/
def SlipBuffer.take (b : SlipBuffer) (aligned : Bool) : SlipBuffer :=
  if aligned then
    match b.waiting with
    | f :: rest => { b with waiting := rest, read := f }
    | [] => b.countSlip
  else { b with read := Frame.ones }

/-! ### The maintenance unit's own changes (08) -/

/-- The runs zeroed and FAR_ALARM cleared, as on leaving ALIGNED (R149). -/
def Maint.zeroRuns (m : Maint) : Maint :=
  { m with runSym := none, runLength := 0, recognized := false, absence := 0, farAlarm := false }

/-- The state of a port's maintenance unit after a disable (R160) or DEVICE_RESET (R161); the burst
code keeps its value. -/
def Maint.ended (m : Maint) : Maint := { Maint.powerOn with burstCode := m.burstCode }

/-- The run after one more frame (R146). -/
def Maint.countRun (m : Maint) (y : Sym) : Maint :=
  if m.runSym = some y then { m with runLength := satSucc Config.codeRun m.runLength }
  else { m with runSym := some y, runLength := 1, recognized := false }

/-- The far-alarm judgement of a counted frame (R148). -/
def Maint.judgeFar (m : Maint) (y : Sym) : Maint :=
  if m.farAlarm then
    if y = .farAlarm then { m with absence := 0 }
    else if m.absence + 1 < Config.farRun then { m with absence := m.absence + 1 }
    else { m with absence := 0, farAlarm := false }
  else if y = .farAlarm ∧ m.runLength = Config.farRun then { m with absence := 0, farAlarm := true }
  else m

/-- The code a counted frame's run is recognized as, if it is (R147). -/
def Maint.recognizes (m : Maint) : Option Code :=
  if m.runLength = Config.codeRun ∧ m.recognized = false then
    match m.runSym with
    | some .loopUp => some .loopUp
    | some .loopDown => some .loopDown
    | some .quiet | some .farAlarm | none => none
  else none

/-! ### A line port's own changes (01) -/

/-- The framer is in SEARCH, which goes on from some bits with the bit at a place. On leaving ALIGNED
UNFRAMED is raised (on an enabled port), the slip buffer is no longer written, the maintenance unit's runs
are zeroed and the division into frame periods begins (R4 to R6, R8, R11, R12, R35, R149). -/
def Port.toSearch (p : Port) (next : Option Place) (recent : List Bool) : Port :=
  let framer := { p.framer with state := .search, verified := 0, next := next, recent := recent,
                                overhead := [], erroredRun := 0 }
  if p.aligned then
    { p with framer := { framer with period := { OnesPeriod.start with next := next } },
             defects := { p.defects with unframed := p.defects.unframed || p.config.enable },
             slip := p.slip.stop, maint := p.maint.zeroRuns }
  else { p with framer := framer }

/-- A nibble missed in VERIFY, or the fourth errored one in ALIGNED: the search goes on with the window that
begins at its second bit (R4, R5). -/
def Port.missed (p : Port) (nibble : List Bool) : Port :=
  p.toSearch (some (p.framer.place + 4)) (nibble.drop 1)

/-- SIG_LOST is raised and forced SEARCH takes effect (R8, R10). -/
def Port.loseSignal (p : Port) : Port :=
  ({ p with defects := { p.defects with sigLost := true } }).toSearch none []

/-- SIG_LOST follows the level of LOS_n on an enabled port that is not in INWARD_HOST (R10). -/
def Port.followLos (p : Port) : Port :=
  if p.config.enable = true ∧ p.maint.loop ≠ .inwardHost then
    if p.los then p.loseSignal else { p with defects := { p.defects with sigLost := false } }
  else p

/-- The framer enters ALIGNED (R4, R6, R34). -/
def Port.toAligned (p : Port) : Port :=
  { p with framer := { p.framer with state := .aligned, verified := 0, erroredRun := 0, allOnesRun := 0 },
           defects := { p.defects with unframed := false, aisIn := false },
           slip := p.slip.recentre }

/-- The loop state becomes another, its timer stopped; entering INWARD_HOST the framer takes the port's
own transmit stream from the next bit and SIG_LOST is removed, and leaving it the line is taken again and
LOS_n followed. The framer keeps its state, its place, its search, its frame period and the bits of a byte in
progress (R10, R11, R151, R153). -/
def Port.setLoop (p : Port) (l : LoopState) : Port :=
  if p.maint.loop = l then p
  else
    let q := { p with maint := { p.maint with loop := l, loopTimer := 0, loopMark := .plain } }
    if l = .inwardHost then
      { q with defects := { q.defects with sigLost := false } }
    else if p.maint.loop = .inwardHost then q.followLos
    else q

/-- RETURN_CODE is entered, its timer started unless the loop timeout is 0 (R154, R156). -/
def Port.enterCodeLoop (p : Port) : Port :=
  { p with maint := { p.maint with loop := .returnCode,
                                   loopTimer := p.config.loopTimeout.toNat * Config.longUnitFrames,
                                   loopMark := .plain } }

/-- What a recognized code does to the loop state (R154, R155). -/
def Port.actOnCode (p : Port) : Code → Port
  | .loopUp =>
    if p.config.codeResponse = true ∧ p.maint.loop = .off then p.enterCodeLoop else p
  | .loopDown => if p.maint.loop = .returnCode then p.setLoop .off else p

/-- One symbol handed on: the run, the far alarm and the recognition, in one step (R146 to R148).
The second part says whether a code was recognized. -/
def Port.countSymbol (p : Port) (symbol : Nibble) : Port × Bool :=
  let m := (p.maint.countRun (symOf symbol)).judgeFar (symOf symbol)
  match m.recognizes with
  | some c => (({ p with maint := { m with recognized := true, lastCode := some c } }).actOnCode c, true)
  | none => ({ p with maint := m }, false)

/-- A disabled port is enabled (R3, R11, R17). -/
def Port.enableUp (p : Port) : Port :=
  let q := { p with config := { p.config with enable := true },
                    framer := { p.framer with state := .search, verified := 0, next := none, recent := [],
                                              overhead := [], erroredRun := 0, allOnesRun := 0,
                                              period := OnesPeriod.start },
                    defects := { p.defects with off := false, unframed := true },
                    slip := p.slip.recentre }
  q.followLos

/-- An enabled port is disabled (R18, R35, R160). -/
def Port.disableDown (p : Port) : Port :=
  let q := ({ p with config := { p.config with enable := false } }).toSearch none []
  { q with framer := { q.framer with allOnesRun := 0 },
           defects := { off := true, sigLost := false, aisIn := false, unframed := false,
                        slipExcess := false },
           slip := q.slip.emptied, maint := q.maint.ended }

/-! ### The transmitted bits, and the port's own stream in an INWARD loop (R1, R15, R103) -/

/-- The overhead byte of the port's transmit frame (R2, R16). -/
def Port.overhead (p : Port) : Byte := (0xB : Nibble) ++ p.txSymbol

/-- The port's transmit frame in progress, where it sends one (R15). -/
def Port.txFrame (p : Port) : Option Frame := p.txPayload.map fun b => p.overhead :: b

/-- The bits of the system frame in progress on the port's transmit data: its transmit frame's, or ones
(R1, R15). -/
def Port.txBits (p : Port) : List Bool := p.txFrame.elim onesBits slotsBits

/-- The 288 bits sent last where `sent` bits of the system frame in progress have been sent (R1, R27). -/
def Port.lastSent (p : Port) (sent : Nat) : List Bool := p.txLast.drop sent ++ p.txBits.take sent

/-- The port's receive framer takes the port's own transmit stream (R103, R153). -/
def Port.inward (p : Port) : Bool := p.maint.loop == .inwardHost

/-- How many bits after the first bit of a system frame a place lies (R103). -/
def Port.offset (p : Port) (place : Place) : Nat := (place - p.txPlace).val

/-- The port's own bits that are still held, in the order sent: those sent last, then those of the system
frame in progress (R103). -/
def Port.ownStream (p : Port) : List Bool := p.txLast ++ p.txBits

/-- Where the latest `count` own bits that begin at a place lie in the own stream: in the system frame in
progress where they end with it at the latest, else in the one before (R103). -/
def Port.ownIndex (p : Port) (place : Place) (count : Nat) : Nat :=
  if p.offset place + count ≤ Config.frameBits then Config.frameBits + p.offset place else p.offset place

/-- The latest `count` of the port's own bits that begin at a place (R103). -/
def Port.ownBits (p : Port) (place : Place) (count : Nat) : List Bool :=
  (p.ownStream.drop (p.ownIndex place count)).take count

/-- The bits the framer takes at a place: the port's own in an INWARD loop, else the line's (R103). -/
def Port.received (p : Port) (place : Place) (bits : List Bool) : List Bool :=
  if p.inward then p.ownBits place bits.length else bits

/-- The bits received of the overhead byte in progress, with no more further ones than it still has to come:
each is the line's or the port's own, as the framer takes the one stream or the other when it is received (R1,
R2, R103, R153). -/
def Port.seen (p : Port) (bits : List Bool) : List Bool :=
  p.framer.overhead ++
    p.received (p.framer.place + Fin.ofNat Config.frameBits p.framer.overhead.length)
      (bits.take (8 - p.framer.overhead.length))

/-- The bits of slot k of the frame being received with further ones, in the same way: in an INWARD loop the
port's own at that place of the frame, once they have been sent (R1, R103, R153). -/
def Port.slotBits (p : Port) (k : Nat) (bits : List Bool) : Option (List Bool) :=
  let bits := bits.take (8 - p.slip.slot.length)
  if p.inward then
    let own := p.rxFirst.elim [] fun first =>
      (p.ownStream.drop (first + 8 * k + p.slip.slot.length)).take bits.length
    if own.length = bits.length then some (p.slip.slot ++ own) else none
  else some (p.slip.slot ++ bits)

/-! ### A port's change and what it sets off -/

/-- The port the reference monitor has selected has left ALIGNED, or the selection has changed: the
monitor is in FREEWHEEL, and the next oscillator start is measured from the last system frame start
(R25, R26, R29). -/
def RefMonitor.lose (r : RefMonitor) : RefMonitor :=
  { r with state := .freewheel, point := r.lastStart, windowOpen := false, missed := 0, good := 0,
           lastMark := none }

/-- The ports with a function of each applied. -/
def mapPorts (f : PortNo → Port → Port) (v : Vector Port 16) : Vector Port 16 :=
  Vector.ofFn fun i => f i v[i]

/-- Port n is replaced by its new state and the change reaches its neighbours in the same step: a
change of the source defect, of FAR_ALARM or of the loop state is posted (R14, R148 to R150, R160),
and leaving ALIGNED puts a monitor that has the port selected into FREEWHEEL (R6, R25). -/
def State.changePort (s : State) (n : PortNo) (q : Port) : State :=
  let p := s.ports[n]
  let s := { s with
    ports := s.ports.set n q,
    ref := if p.aligned = true ∧ q.aligned = false ∧ s.ref.selection = RefSelection.port n then s.ref.lose else s.ref }
  let s := s.postIf (p.sourceDefect != q.sourceDefect) (.port n) .portDefect
  let s := s.postIf (p.maint.farAlarm != q.maint.farAlarm) (.port n) .farAlarm
  s.postIf (p.maint.loop != q.maint.loop) (.port n) .loop

/-- One port after another, ascending, each changed by a function of its state (R163). -/
def State.changePorts (s : State) (f : Port → Port) : State :=
  (List.finRange 16).foldl (fun s n => s.changePort n (f s.ports[n])) s

/-! ### Records, contexts and selections -/

/-- A record's new state in the table. -/
def State.setRecord (s : State) (id : Nat) (r : Record) : State :=
  { s with records := s.records.put id r }

/-- The record joins the pending-change set (R93). -/
def State.markPending (s : State) (id : Nat) : State :=
  match s.records.get id with
  | some r => s.setRecord id { r with pending := true }
  | none => s

/-- The selection of some transmit slots: IDLE is the absent entry. -/
def setSelections (t : Table Selection) (sel : Selection) (ks : List Nat) : Table Selection :=
  match sel with
  | .idle => t.delKeys ks
  | .source _ _ | .cond _ => t.putKeys ks sel

/-- The installed selection of a transmit slot (R90). -/
def State.selection (s : State) (port : PortNo) (slot : Nat) : Selection :=
  (s.selections.get (txKey port slot)).getD .idle

/-- A context's step has ended: where its selected source has changed, the switch is counted, the
record joins the pending-change set and is posted with SELECT (R131). -/
def State.commitContext (s : State) (id k : Nat) (before after : Context) : State :=
  if before.selected = after.selected then { s with contexts := s.contexts.put k after }
  else
    let after := { after with switches := satSucc Config.counterMax before.switches }
    (({ s with contexts := s.contexts.put k after }).markPending id).post (.record id) .select

/-- The context bound to a record, with its number (R44, R125). -/
def State.contextOf (s : State) (r : Record) : Option (Nat × Context) :=
  match r.context with
  | some k => (s.contexts.get k).map fun c => (k, c)
  | none => none

/-! ### The executor's answers (10) -/

def Answer.ok (data : List Byte) : Answer := ⟨.ok, data⟩

/-- A refusal that carries no data. -/
def Answer.bare (st : Status) : Answer := ⟨st, []⟩

/-- The executor's answer is ready and stands until it is placed (R179, log 15). -/
def State.answering (s : State) (x : Execution) (a : Answer) : State :=
  { s with executor := some { x with answer := some a } }

/-- The executor carries out the request it has been handed, in one step, and holds the answer
until it is placed (R179). A request command that is not the one handed over, or that has been
carried out already, is no event of the part and changes nothing (log 1). -/
def carryOut (i : Instr) (act : State → Answer × State) (s : State) : Host.Outcome State Fault Refusal :=
  match s.executor with
  | some x =>
    if x.request = some i ∧ x.answer = none then
      .next ((act s).2.answering x (act s).1)
    else .next s
  | none => .next s

/-- The executor has been handed the request `i` and has not yet carried it out. -/
abbrev State.handed (s : State) (i : Instr) (x : Execution) : Prop :=
  s.executor = some x ∧ x.request = some i ∧ x.answer = none

end Sys2Proof.Machine
end

