-- ==== Sys2Proof/Machine/Formats.lean ====
section
/-! DEFINITION. What the part sends: the numbers of the enumerations (R188), the data of every
response (R190), the record image (R82, R83), the port image (R20) and the response frame (R181). -/

namespace Sys2Proof.Machine

/-! ### Enumerations (R188) -/

def RecState.number : RecState → Byte
  | .staged => 1
  | .active => 2
  | .held => 3
  | .retiring => 4

/-- The number of FREE. -/
def freeNumber : Byte := 0

def Kind.number : Kind → Byte
  | .simplex => 0
  | .duplex => 1
  | .branch => 2

def Dir.number : Dir → Byte
  | .rx => 0
  | .tx => 1

def EntryState.number : EntryState → Byte
  | .inService => 0
  | .joining => 1
  | .leaving => 2

def HealthState.number : HealthState → Byte
  | .clear => 0
  | .pendingFail => 1
  | .failed => 2
  | .pendingClear => 3

def ReqState.number : ReqState → Byte
  | .none => 0
  | .restoreWait => 1
  | .manualWorking => 2
  | .manualStandby => 3
  | .failWorking => 4
  | .forceStandby => 5
  | .failStandby => 6
  | .holdWorking => 7

def Mode.number : Mode → Byte
  | .revertive => 0
  | .nonRevertive => 1

def Selected.number : Selected → Byte
  | .working => 0
  | .standby => 1

def SourceDefect.number : SourceDefect → Byte
  | .none => 0
  | .slipExcess => 1
  | .unframed => 2
  | .aisIn => 3
  | .sigLost => 4
  | .off => 5

def LoopState.number : LoopState → Byte
  | .off => 0
  | .returnHost => 1
  | .returnCode => 2
  | .inwardHost => 3

def Code.number : Code → Byte
  | .loopUp => 0x6
  | .loopDown => 0x9

def FramerState.number : FramerState → Byte
  | .search => 0
  | .verify => 1
  | .aligned => 2

def RefState.number : RefState → Byte
  | .refOk => 0
  | .freewheel => 1

def Status.number : Status → Byte
  | .ok => 0x01
  | .badRequest => 0x02
  | .badParam => 0x03
  | .notFound => 0x04
  | .wrongState => 0x05
  | .slotTaken => 0x06
  | .tableFull => 0x07
  | .noContext => 0x08
  | .stale => 0x09
  | .empty => 0x0A
  | .aborted => 0x0B

/-! ### Fields -/

def byteOf (x : Nat) : Byte := BitVec.ofNat 8 x

def idBytes (id : Nat) : List Byte := halfBytes (BitVec.ofNat 16 id)

def countBytes (x : Nat) : List Byte := halfBytes (BitVec.ofNat 16 x)

def End.bytes (e : End) : List Byte := [byteOf e.port.val, byteOf e.first]

/-- Bits 15–14 health state, bits 11–0 timer remaining (R190). -/
def Health.bytes (h : Health) : List Byte :=
  halfBytes (BitVec.ofNat 16 (h.state.number.toNat * 16384 + h.timer % 4096))

/-! ### Refusals with data (R64, R190) -/

/-- STALE and WRONG_STATE of a record request: revision and state. -/
def Answer.recordRefusal (st : Status) (r : Record) : Answer := ⟨st, [r.revision, r.state.number]⟩

/-- SLOT_TAKEN: port, slot, direction and holder (R61). -/
def Answer.slotTaken (t : Triple) (holder : Nat) : Answer :=
  ⟨.slotTaken, [byteOf t.port.val, byteOf t.slot, t.dir.number] ++ idBytes holder⟩

/-- OK of CONNECT, MODIFY, RETIRE, HOLD and RELEASE: id, state, revision. -/
def Answer.recordOk (id : Nat) (state revision : Byte) : Answer :=
  .ok (idBytes id ++ [state, revision])

/-! ### Images -/

/-- The end on a port is looped (R83). -/
def State.looped (s : State) (p : PortNo) : Bool := s.ports[p].maint.loop.returns

/-- A destination slot of the record image. -/
def State.destBytes (s : State) (d : Dest) : List Byte :=
  [byteOf (d.dest.port.val * 16 + d.state.number.toNat * 4 + (s.looped d.dest.port).toNat),
    byteOf d.dest.first]

/-- The first n bytes of a list, filled up with zeros. -/
def padTo (n : Nat) (l : List Byte) : List Byte := (l ++ List.replicate n 0).take n

/-- Bytes 33 to 42 of the record image: the context's fields, or none. -/
def contextBytes : Option (Nat × Context) → List Byte
  | some (k, c) =>
    [byteOf k, byteOf (c.mode.number.toNat + 2 * c.selected.number.toNat), c.request.number] ++
      wordBytes (BitVec.ofNat 32 c.wtrLeft) ++ countBytes c.switches ++ [c.wtrTime]
  | none => 0xFF :: List.replicate 9 0

/-- The record image of QUERY, 43 bytes (R82, R83, R190). -/
def State.recordImage (s : State) (id : Nat) (r : Record) : List Byte :=
  let flags := flagBit r.pending 1 + flagBit r.standby.isSome 2 + flagBit r.leaving.isSome 4 +
    flagBit (s.contextOf r).isSome 8 + flagBit (r.kind == .duplex && s.looped r.source.port) 16
  idBytes id ++ [r.state.number, r.kind.number, byteOf r.width, r.revision, flags] ++
    r.source.bytes ++ [byteOf r.dests.length] ++ padTo 8 (r.dests.flatMap s.destBytes) ++
    ((r.standby.or r.leaving).elim [0, 0] End.bytes) ++ wordBytes r.label ++
    [r.code, r.holdOff, r.clearTime] ++ r.healthAB.bytes ++ (r.healthBA.elim [0, 0] Health.bytes) ++
    (r.healthS.elim [0, 0] Health.bytes) ++ contextBytes (s.contextOf r)

/-- The port image of PORT_QUERY, 14 bytes (R20, R190). -/
def Port.image (n : PortNo) (p : Port) : List Byte :=
  [byteOf n.val,
    flagBit p.config.enable 1 + flagBit p.config.codeResponse 2 + flagBit p.config.farSend 4,
    p.config.idleCode, p.config.threshold, p.config.loopTimeout,
    p.framer.state.number, p.sourceDefect.number,
    p.maint.loop.number + flagBit p.maint.farAlarm 16] ++
    countBytes p.slip.slips ++ countBytes p.framer.erroredCount ++
    [byteOf p.slip.periodSlips, byteOf p.slip.fill]

/-- Selection and port of the reference; with EXTERNAL the port byte is 0 (R188, R190). -/
def RefMonitor.selectionBytes (r : RefMonitor) : List Byte :=
  match r.selection with
  | .external => [0, 0]
  | .port n => [1, byteOf n.val]

/-- The two ATN enables in one byte (R190). -/
def State.enableByte (s : State) : Byte := flagBit s.enableM 1 + flagBit s.enableS 2

/-- The change summary of a record entry. -/
def Summary.recordByte (m : Summary) : Byte :=
  flagBit m.health 1 + flagBit m.select 2 + flagBit m.state 4

/-- The change summary of a port entry. -/
def Summary.portByte (m : Summary) : Byte :=
  flagBit m.portDefect 1 + flagBit m.farAlarm 2 + flagBit m.code 4 + flagBit m.loop 8

/-- The current state of a record subject (R165): an absent health is 0xFF, a FREE record all 0. -/
def State.recordNow (s : State) (id : Nat) : List Byte :=
  match s.records.get id with
  | some r =>
    [r.state.number, r.revision, r.healthAB.state.number,
      r.healthBA.elim 0xFF fun h => h.state.number, r.healthS.elim 0xFF fun h => h.state.number,
      (s.contextOf r).elim 0 fun kc => kc.2.selected.number]
  | none => [freeNumber, 0, 0, 0, 0, 0]

/-- The current state of a port subject (R165). -/
def State.portNow (s : State) (n : PortNo) : List Byte :=
  let p := s.ports[n]
  [p.sourceDefect.number, flagBit p.maint.farAlarm 1, p.maint.loop.number,
    p.maint.lastCode.elim 0 Code.number]

/-- The data of an ATTENTION response: the entry fetched, the entries left and the subject's current
state (R164, R190). -/
def State.attentionData (s : State) (e : Entry) (left : Nat) : List Byte :=
  match e.subject with
  | .record id => 0 :: idBytes id ++ [e.summary.recordByte] ++ countBytes left ++ s.recordNow id
  | .port n => 1 :: idBytes n.val ++ [e.summary.portByte] ++ countBytes left ++ s.portNow n

/-- The data of DEVICE_QUERY (R185, R190). -/
def State.deviceData (s : State) : List Byte :=
  wordBytes Config.identity ++ s.ref.selectionBytes ++ [s.ref.state.number] ++
    countBytes s.records.length ++ [byteOf (Config.contexts - s.contexts.length)] ++
    countBytes s.attention.length ++ [s.enableByte]

/-- A response frame (R181, R188). -/
def responseFrame (code tag : Byte) (a : Answer) : List Byte :=
  [code, tag, a.status.number, byteOf a.data.length] ++ a.data

end Sys2Proof.Machine
end

