-- ==== Sys2Proof/Machine/DeviceRequests.lean ====
section
/-! DEFINITION. The attention requests ATTENTION and ATTN_ENABLE (09), the device requests
DEVICE_QUERY and DEVICE_RESET (11), and the RST pin (11, R187). -/

namespace Sys2Proof.Machine

/-! ### ATTENTION and ATTN_ENABLE (R164, R165, R168) -/

def doAttention (s : State) : Answer × State :=
  match s.attention with
  | [] => (.bare .empty, s)
  | e :: rest => (.ok (s.attentionData e rest.length), { s with attention := rest })

/-- ATTENTION. -/
def execAttention (s : State) : Host.Outcome State Fault Refusal :=
  carryOut .attention doAttention s

def doAttnEnable (m e : Option Byte) (s : State) : Answer × State :=
  match optBit? m, optBit? e with
  | some bm, some bs =>
    if m.isSome || e.isSome then
      let t := { s with enableM := bm.getD s.enableM, enableS := bs.getD s.enableS }
      (.ok [t.enableByte], t)
    else (.bare .badParam, s)
  | _, _ => (.bare .badParam, s)

/-- ATTN_ENABLE. -/
def execAttnEnable (enM enS : Option Byte) (s : State) : Host.Outcome State Fault Refusal :=
  carryOut (.attnEnable enM enS) (doAttnEnable enM enS) s

/-! ### DEVICE_QUERY and DEVICE_RESET (R185, R186) -/

/-- DEVICE_QUERY. -/
def execDeviceQuery (s : State) : Host.Outcome State Fault Refusal :=
  carryOut .deviceQuery (fun s => (.ok s.deviceData, s)) s

def otherPort : MPortId → MPortId
  | .m => .s
  | .s => .m

def State.setMport (s : State) (p : MPortId) (x : MPort) : State :=
  match p with
  | .m => { s with portM := x }
  | .s => { s with portS := x }

/-- A request WAITING is not executed: the port is ANSWERED with its echoes and ABORTED (R183). -/
def MPort.abort (x : MPort) : MPort :=
  if x.txn = .waiting then
    { x with txn := .answered, request := [],
             response := responseFrame (x.request.getD 0 0) (x.request.getD 1 0) (.bare .aborted) }
  else x

/-- A port through DEVICE_RESET, LOS_n apart: the maintenance unit in its power-on state and the two
counters at 0 (R22, R37, R161). -/
def Port.deviceReset (p : Port) : Port :=
  { p with framer := { p.framer with erroredCount := 0 }, slip := { p.slip with slips := 0 },
           maint := p.maint.ended }

/-- A port that was in INWARD_HOST takes the line again and follows LOS_n (R22, R153, R161). -/
def State.releaseInward (before : State) (s : State) (n : PortNo) : State :=
  if before.ports[n].maint.loop = .inwardHost then s.changePort n s.ports[n].followLos else s

/-- The connection side of the part emptied in one step (R186). -/
def State.emptied (s : State) : State :=
  { s with records := [], slotMap := [], selections := [], contexts := [], attention := [],
           ports := mapPorts (fun _ p => p.deviceReset) s.ports }

/-- DEVICE_RESET's step: everything emptied, then the changes of source defect that follow are posted
to the emptied list in ascending port order, and the other port's waiting request is aborted. -/
def doDeviceReset (s : State) : Answer × State :=
  let t := (List.finRange 16).foldl (fun t n => s.releaseInward t n) s.emptied
  match s.executor with
  | some x => (.ok [], t.setMport (otherPort x.port) (t.mport (otherPort x.port)).abort)
  | none => (.ok [], t)

/-- DEVICE_RESET. -/
def execDeviceReset (s : State) : Host.Outcome State Fault Refusal :=
  carryOut .deviceReset doDeviceReset s

/-! ### The RST pin (R187) -/

/-- RST taken low: every block at its power-on value; the levels of the LOS_n pins are the board's,
and the queue of commands is the model's. -/
def State.powerOn (s : State) : State :=
  { State.reset with rst := true, straps := s.straps, pending := s.pending,
                     ports := mapPorts (fun _ p => Port.powerOn p.los) s.ports }

/-- RST_ASSERT. -/
def execRstAssert (s : State) : Host.Outcome State Fault Refusal := .next s.powerOn

/-- The bus of a port as RST rises: a transaction that is running there is not taken (R184). -/
def busAtRelease (running : Bool) : Bus := if running then .missed else .free

/-- RST released: the straps are latched (R172, R187). -/
def State.released (s : State) (r : Release) : State :=
  { s with rst := false, straps := r.straps,
           portM := { s.portM with bus := busAtRelease r.busM },
           portS := { s.portS with bus := busAtRelease r.busS } }

/-- RST_RELEASE; moments are counted from here (log 3). -/
def execRstRelease (release : Release) (s : State) : Host.Outcome State Fault Refusal :=
  if s.rst then .next (s.released release) else .next s

end Sys2Proof.Machine
end

