-- ==== Sys2Proof/Machine/TableRequests.lean ====
section
/-! DEFINITION. The table requests: CONNECT, MODIFY, RETIRE, HOLD, RELEASE, QUERY, FIND, NEXT (03,
04). Each `do…` is the executor's step of an accepted or refused request: its answer and the state
after it; a refused request changes nothing (R63). -/

namespace Sys2Proof.Machine

/-! ### The checks common to requests that name a record (R49, R82) -/

/-- Steps 1 and 2 of R49: the id is in range and its record is not FREE. -/
def onRecord (id : Half) (act : Nat → Record → State → Answer × State) (s : State) : Answer × State :=
  if Config.records ≤ id.toNat then (.bare .badParam, s)
  else
    match s.records.get id.toNat with
    | none => (.bare .notFound, s)
    | some r => act id.toNat r s

/-- Steps 1 to 3 of R49: the expected revision is the record's. -/
def onRevision (id : Half) (expected : Byte) (act : Nat → Record → State → Answer × State)
    (s : State) : Answer × State :=
  onRecord id (fun k r s =>
    if r.revision = expected then act k r s else (.recordRefusal .stale r, s)) s

/-- WRONG_STATE of a record request (R64). -/
def wrongState (r : Record) (s : State) : Answer × State := (.recordRefusal .wrongState r, s)

/-! ### Slot map and contexts -/

/-- Reserve triples for a record (R59). -/
def State.reserve (s : State) (ts : List Triple) (id : Nat) : State :=
  { s with slotMap := s.slotMap.putKeys (ts.map Triple.key) id }

/-- Release triples (R60). -/
def State.releaseTriples (s : State) (ts : List Triple) : State :=
  { s with slotMap := s.slotMap.delKeys (ts.map Triple.key) }

/-- A bound context becomes free, its fields discarded (R126). -/
def State.unbind (s : State) (context : Option Nat) : State :=
  match context with
  | some k => { s with contexts := s.contexts.del k }
  | none => s

/-- The record becomes FREE: its fields and its context discarded, every triple released (R52,
R53). -/
def State.freeRecord (s : State) (id : Nat) (r : Record) : State :=
  { (s.unbind r.context) with records := s.records.del id, slotMap := s.slotMap.delValue id }

/-! ### CONNECT (R66 to R71) -/

/-- The record CONNECT creates (R54). -/
def newRecord (q : ConnectReq) (p : ConnectPlan) : Record :=
  { state := .staged, kind := p.kind, width := p.width, source := p.source,
    dests := p.dests.map fun e => ⟨e, .inService⟩,
    standby := none, leaving := none, label := q.label,
    code := q.code.getD 0xFF,
    holdOff := (q.profile.map (·.1)).getD 10, clearTime := (q.profile.map (·.2)).getD 10,
    revision := 0, healthAB := Health.good,
    healthBA := if p.kind = .duplex then some Health.good else none,
    healthS := none, pending := true, context := none, handOverDue := false }

/-- The entry of an id leaves the attention list (R55, R167). -/
def dropEntry (l : List Entry) (x : Subject) : List Entry := l.filter fun e => e.subject ≠ x

/-- An accepted CONNECT at its id (R71). -/
def State.install (s : State) (id : Nat) (q : ConnectReq) (p : ConnectPlan) : State :=
  { ((s.setRecord id (newRecord q p)).reserve (newRecord q p).triples id) with
    attention := dropEntry s.attention (.record id) }

def doConnect (q : ConnectReq) (s : State) : Answer × State :=
  match connectPlan q with
  | none => (.bare .badParam, s)
  | some p =>
    match firstHeld s.slotMap (newRecord q p).triples with
    | some (t, holder) => (.slotTaken t holder, s)
    | none =>
      match s.records.lowestFree Config.records with
      | none => (.bare .tableFull, s)
      | some id => (.recordOk id RecState.staged.number 0, s.install id q p)

/-- CONNECT. -/
def execConnect (q : ConnectReq) (s : State) : Host.Outcome State Fault Refusal :=
  carryOut (.connect q) (doConnect q) s

/-! ### MODIFY (R72 to R76) -/

/-- The configuration parts of an accepted MODIFY, and the revision's step (R73, R76). -/
def Record.modified (r : Record) (q : ModifyReq) : Record :=
  { r with label := q.label.getD r.label, code := q.code.getD r.code,
           holdOff := q.holdOff.getD r.holdOff, clearTime := q.clearTime.getD r.clearTime,
           revision := r.revision + 1,
           pending := r.pending || q.code.isSome || q.add.isSome || q.remove.isSome }

/-- An entry becomes LEAVING, its place kept (R75). -/
def leaveAt : List Dest → Nat → List Dest
  | [], _ => []
  | d :: t, 0 => { d with state := .leaving } :: t
  | d :: t, i + 1 => d :: leaveAt t i

/-- An entry can be removed: it is IN or JOINING and two entries stay (R75). -/
def Record.canRemove (r : Record) (i : Nat) : Bool :=
  match r.dests[i]? with
  | some d => d.state != .leaving &&
      decide (2 ≤ ((leaveAt r.dests i).filter fun d => d.state ≠ .leaving).length)
  | none => false

/-- The end an add destination part names, where it passes steps 1 to 3 of R74. -/
def Record.canAdd (r : Record) (e : RawEnd) : Option End :=
  match toEnd r.width e with
  | some x =>
    if r.dests.length < 4 ∧ ∀ t ∈ x.triples r.width .tx, t ∉ r.triples then some x else none
  | none => none

/-- An add destination (R74). -/
def modifyAdd (q : ModifyReq) (e : RawEnd) (id : Nat) (r : Record) (s : State) : Answer × State :=
  match r.canAdd e with
  | none => (.bare .badParam, s)
  | some x =>
    match firstHeld s.slotMap (x.triples r.width .tx) with
    | some (t, holder) => (.slotTaken t holder, s)
    | none =>
      let r' := { r.modified q with dests := r.dests ++ [⟨x, .joining⟩] }
      (.recordOk id r'.state.number r'.revision,
        (s.setRecord id r').reserve (x.triples r.width .tx) id)

/-- A remove destination (R75). -/
def modifyRemove (q : ModifyReq) (i : Byte) (id : Nat) (r : Record) (s : State) : Answer × State :=
  if r.canRemove i.toNat then
    let r' := { r.modified q with dests := leaveAt r.dests i.toNat }
    (.recordOk id r'.state.number r'.revision, s.setRecord id r')
  else (.bare .badParam, s)

/-- MODIFY after R49: the combination of its parts (R72), then each part. -/
def modifyRecord (q : ModifyReq) (id : Nat) (r : Record) (s : State) : Answer × State :=
  if r.state = .retiring then wrongState r s
  else
    match q.add, q.remove with
    | some _, some _ => (.bare .badParam, s)
    | some e, none => if r.kind = .branch then modifyAdd q e id r s else (.bare .badParam, s)
    | none, some i => if r.kind = .branch then modifyRemove q i id r s else (.bare .badParam, s)
    | none, none =>
      if q.label.isSome || q.code.isSome || q.holdOff.isSome || q.clearTime.isSome then
        (.recordOk id r.state.number (r.revision + 1), s.setRecord id (r.modified q))
      else (.bare .badParam, s)

def doModify (q : ModifyReq) (s : State) : Answer × State :=
  onRevision q.id q.expected (modifyRecord q) s

/-- MODIFY. -/
def execModify (q : ModifyReq) (s : State) : Host.Outcome State Fault Refusal :=
  carryOut (.modify q) (doModify q) s

/-! ### RETIRE (R77) -/

def retireRecord (id : Nat) (r : Record) (s : State) : Answer × State :=
  match r.state with
  | .staged => (.recordOk id freeNumber r.revision, s.freeRecord id r)
  | .active | .held =>
    (.recordOk id RecState.retiring.number r.revision,
      s.setRecord id { r with state := .retiring, pending := true })
  | .retiring => wrongState r s

/-- RETIRE. -/
def execRetire (id : Half) (expected : Byte) (s : State) : Host.Outcome State Fault Refusal :=
  carryOut (.retire id expected) (onRevision id expected retireRecord) s

/-! ### HOLD and RELEASE (R79, R80) -/

def holdRecord (id : Nat) (r : Record) (s : State) : Answer × State :=
  if r.state = .active then
    (.recordOk id RecState.held.number (r.revision + 1),
      s.setRecord id { r with state := .held, revision := r.revision + 1, pending := true })
  else wrongState r s

def releaseRecord (id : Nat) (r : Record) (s : State) : Answer × State :=
  if r.state = .held then
    (.recordOk id RecState.active.number (r.revision + 1),
      s.setRecord id { r with state := .active, revision := r.revision + 1, pending := true })
  else wrongState r s

/-- HOLD. -/
def execHold (id : Half) (expected : Byte) (s : State) : Host.Outcome State Fault Refusal :=
  carryOut (.hold id expected) (onRevision id expected holdRecord) s

/-- RELEASE. -/
def execRelease (id : Half) (expected : Byte) (s : State) : Host.Outcome State Fault Refusal :=
  carryOut (.release id expected) (onRevision id expected releaseRecord) s

/-! ### QUERY, FIND and NEXT (R82 to R86) -/

/-- QUERY. -/
def execQuery (id : Half) (s : State) : Host.Outcome State Fault Refusal :=
  carryOut (.query id) (onRecord id fun k r s => (.ok (s.recordImage k r), s)) s

/-- The index and entry of the first destination that covers a slot. -/
def findDest (width : Nat) (port : PortNo) (slot : Nat) : Nat → List Dest → Option (Nat × Dest)
  | _, [] => none
  | i, d :: t => if d.dest.covers width port slot then some (i, d) else findDest width port slot (i + 1) t

/-- Role, destination index, part state and offset of a triple in its holder (R84). -/
def Record.role (r : Record) (t : Triple) : List Byte :=
  let within (e : End) : Byte := byteOf (t.slot - e.first)
  match r.kind with
  | .duplex =>
    if r.source.covers r.width t.port t.slot then [3, 0, 0, within r.source]
    else [4, 0, 0, (r.dests.head?).elim 0 fun d => within d.dest]
  | .simplex | .branch =>
    match t.dir with
    | .tx =>
      match findDest r.width t.port t.slot 0 r.dests with
      | some (i, d) => [2, byteOf i, d.state.number, within d.dest]
      | none => [2, 0, 0, 0]
    | .rx =>
      if r.source.covers r.width t.port t.slot then [0, 0, 0, within r.source]
      else
        match r.standby, r.leaving with
        | some e, _ => [1, 0, 0, within e]
        | none, some e => [1, 0, 1, within e]
        | none, none => [1, 0, 0, 0]

/-- The triple a FIND names, where it passes its checks (R84). -/
def findTriple (port slot direction : Byte) : Option Triple :=
  match portNo port, dir? direction with
  | some p, some d =>
    if 1 ≤ slot.toNat ∧ slot.toNat ≤ Config.lastSlot then some ⟨p, slot.toNat, d⟩ else none
  | _, _ => none

def doFind (port slot direction : Byte) (s : State) : Answer × State :=
  match findTriple port slot direction with
  | none => (.bare .badParam, s)
  | some t =>
    match s.slotMap.get t.key with
    | none => (.bare .notFound, s)
    | some id =>
      match s.records.get id with
      | some r => (.ok (idBytes id ++ r.role t ++ [r.state.number, r.revision]), s)
      | none => (.bare .notFound, s)

/-- FIND. -/
def execFind (port slot direction : Byte) (s : State) : Host.Outcome State Fault Refusal :=
  carryOut (.find port slot direction) (doFind port slot direction) s

/-- The lowest non-FREE id at or above a start (R86). -/
def State.nextFrom (s : State) (start : Nat) : Option (Nat × Record) :=
  s.records.find? fun e => decide (start ≤ e.1)

def doNext (start : Half) (s : State) : Answer × State :=
  if Config.records ≤ start.toNat then (.bare .badParam, s)
  else
    match s.nextFrom start.toNat with
    | some (id, r) => (.ok (idBytes id ++ [r.state.number, r.kind.number] ++ wordBytes r.label), s)
    | none => (.bare .notFound, s)

/-- NEXT. -/
def execNextRecord (start : Half) (s : State) : Host.Outcome State Fault Refusal :=
  carryOut (.nextRecord start) (doNext start) s

end Sys2Proof.Machine
end

