-- ==== Sys2Proof/Machine/Interchange.lean ====
section
/-! DEFINITION. The slot interchange: the application of the pending-change set at a system frame
start (05, 5.3). -/

namespace Sys2Proof.Machine

/-! ### The source of each direction (R96) -/

/-- A direction's source end and whether that source counts as failed. -/
structure Feed where
  source : End
  bad : Bool
  deriving DecidableEq, Repr

/-- Direction AB: the source end with health AB, or the standby with health S where the bound context
has selected it. -/
def Record.feedAB (r : Record) (context : Option Context) : Feed :=
  match context, r.standby with
  | some c, some e =>
    match c.selected with
    | .standby => ⟨e, r.standbyBad⟩
    | .working => ⟨r.source, r.healthAB.bad⟩
  | _, _ => ⟨r.source, r.healthAB.bad⟩

/-- Direction BA of a DUPLEX record: end B with health BA. -/
def Record.feedBA (r : Record) : Option Feed :=
  match r.kind, r.dests.head? with
  | .duplex, some d => some ⟨d.dest, r.healthBA.elim false Health.bad⟩
  | _, _ => none

/-! ### Writing selections (R97, R98) -/

/-- The selection of the slot at offset k of an end that a feed supplies, on a record that is ACTIVE
or HELD at the frame start. -/
def Record.selectionAt (r : Record) (f : Feed) (k : Nat) : Selection :=
  if r.state = .held ∨ f.bad = true then .cond r.code
  else .source f.source.port (f.source.first + k)

/-- The selections of every slot of an end written from a feed. -/
def writeEnd (r : Record) (f : Feed) (e : End) (t : Table Selection) : Table Selection :=
  (List.range r.width).foldl (fun t k => t.put (txKey e.port (e.first + k)) (r.selectionAt f k)) t

/-- The selections of every end of a record that transmits: the destinations by direction AB, and end A
of a DUPLEX record by direction BA. -/
def writeRecord (r : Record) (context : Option Context) (t : Table Selection) : Table Selection :=
  let t := r.dests.foldl (fun t d => writeEnd r (r.feedAB context) d.dest t) t
  match r.feedBA with
  | some f => writeEnd r f r.source t
  | none => t

/-- The transmit slots of a record, as keys of selections (R97). -/
def Record.txKeys (r : Record) : List Nat :=
  r.dests.flatMap (fun d => d.dest.txKeys r.width) ++
    (if r.kind = .duplex then r.source.txKeys r.width else [])

/-! ### One record of the set (R53, R95, R97, R99) -/

/-- A JOINING entry becomes IN; a LEAVING one is taken out (R43, R99). -/
def completeDests (l : List Dest) : List Dest :=
  (l.filter fun d => d.state ≠ .leaving).map fun d => { d with state := .inService }

/-- The entries taken out at the frame start. -/
def Record.goingDests (r : Record) : List Dest := r.dests.filter fun d => d.state = .leaving

/-- The triples released at the frame start: those of LEAVING entries and of a leaving standby. -/
def Record.goingTriples (r : Record) : List Triple :=
  r.goingDests.flatMap (fun d => d.dest.triples r.width .tx) ++
    r.leaving.elim [] (End.triples r.width .rx)

/-- The record after the frame start that takes it (R53, R99). -/
def Record.completed (r : Record) : Record :=
  { r with state := if r.state = .staged then .active else r.state,
           dests := completeDests r.dests, leaving := none, pending := false }

/-- A RETIRING record: IDLE on its transmit slots, the record FREE, STATE posted (R53). -/
def State.retireAtFrame (s : State) (id : Nat) (r : Record) : State :=
  ({ (s.freeRecord id r) with selections := setSelections s.selections .idle r.txKeys }).post (.record id) .state

/-- Every other record: entries and standby completed, IDLE on the slots taken out, its selections
written from its state, health and context; a STAGED one is posted with STATE (R53, R97, R99). -/
def State.installAtFrame (s : State) (id : Nat) (r : Record) : State :=
  let r' := r.completed
  let idle := setSelections s.selections .idle (r.goingDests.flatMap fun d => d.dest.txKeys r.width)
  let context : Option Context := (s.contextOf r).map Prod.snd
  let t : State := { ((s.setRecord id r').releaseTriples r.goingTriples) with
    selections := writeRecord r' context idle }
  t.postIf (r.state == .staged) (.record id) .state

/-- One record of the set at the frame start. -/
def State.recompute (s : State) (id : Nat) : State :=
  match s.records.get id with
  | none => s
  | some r => if r.state = .retiring then s.retireAtFrame id r else s.installAtFrame id r

/-- The interchange at a system frame start takes the whole set, ascending (R95, R163). -/
def State.applyPending (s : State) : State := s.pendingSet.foldl State.recompute s

end Sys2Proof.Machine
end

