-- ==== Sys2Proof/Machine/Frames.lean ====
section
/-! DEFINITION. A system frame start (R28): the slip buffers give their read frames, the interchange
applies its set, the counts and timers count, and every enabled port begins a transmit frame. Then
the reference marks (R24 to R27). -/

namespace Sys2Proof.Machine

/-! ### The parts of a system frame start -/

/-- The read side of a port's slip buffer (R32, R35). -/
def Port.takeFrame (p : Port) : Port := { p with slip := p.slip.take p.aligned }

/-- The loop timer counts a system frame start; the one that ends it leaves the expiry due (R156). -/
def Maint.tick (m : Maint) : Maint :=
  if m.loopTimer = 0 then m
  else if m.loopTimer = 1 then { m with loopMark := .due }
  else { m with loopTimer := m.loopTimer - 1 }

/-- A burst's frame is counted (R159). -/
def Maint.burstFrame (m : Maint) : Maint := { m with burstLeft := m.burstLeft - 1 }

/-- The byte of a transmit slot by its selection (R90). -/
def State.slotByte (s : State) (p : Port) : Selection → Byte
  | .idle => p.config.idleCode
  | .source q slot => s.ports[q].slip.read.getD slot 0xFF
  | .cond b => b

/-- The payload byte of slot t of port n's transmit frame: the port's own read frame in a RETURN
loop (R102), else its selection's byte (R90). -/
def State.payloadByte (s : State) (n : PortNo) (slot : Nat) : Byte :=
  if s.looped n then s.ports[n].slip.read.getD slot 0xFF
  else s.slotByte s.ports[n] (s.selection n slot)

/-- Slots 1 to 35 of the transmit frame of port n. -/
def State.payload (s : State) (n : PortNo) : List Byte :=
  (List.range Config.lastSlot).map fun k => s.payloadByte n (k + 1)

/-- The system frame in progress ends with its first `sent` bits sent: all of them, but for a cut (R15, R24,
R27). -/
def Port.endFrame (p : Port) (sent : Nat) : Port :=
  { p with txLast := p.lastSent sent,
           rxFirst := p.rxFirst.bind fun k => if sent ≤ k then some (k - sent) else none }

/-- The transmit side of port n at a system frame start, its selections and read frames those of
`s` (R15, R16, R18). -/
def State.startFrame (s : State) (n : PortNo) (p : Port) : Port :=
  if p.config.enable then
    { p.endFrame Config.frameBits with
      txSymbol := p.chooseSymbol, txPayload := some (s.payload n), maint := p.maint.burstFrame.tick }
  else { p.endFrame Config.frameBits with txPayload := none, maint := p.maint.tick }

/-- A wait-to-restore timer counts a system frame start, but not the one at which it was set; the one
that ends it leaves the expiry due (R139). -/
def Context.tick (c : Context) : Context :=
  if c.request = .restoreWait then
    match c.wtrMark with
    | .fresh => { c with wtrMark := .plain }
    | .due => c
    | .plain => if c.wtrLeft ≤ 1 then { c with wtrMark := .due } else { c with wtrLeft := c.wtrLeft - 1 }
  else c

/-- The record is ACTIVE or HELD: its timer counts (R139, R143). -/
def State.inService (s : State) (id : Nat) : Bool :=
  match s.records.get id with
  | some r => r.state == .active || r.state == .held
  | none => false

/-- A count of system frame starts: the one that brings it to its length returns it to 0, its expiry
due unless it was taken already (R36, R106, R100). -/
def Period.tick (p : Period) (length : Nat) : Period :=
  if length ≤ p.count + 1 then
    { count := 0, expiry := if p.expiry = .taken then .idle else .due }
  else { p with count := p.count + 1 }

/-- The counts and the timers of the contexts. -/
def State.tickCounts (s : State) : State :=
  { s with interval := s.interval.tick Config.intervalFrames,
           slipPeriod := s.slipPeriod.tick Config.slipPeriodFrames,
           contexts := s.contexts.mapValues fun _ c => if s.inService c.record then c.tick else c }

/-- A system frame start (R28). -/
def State.frameStart (s : State) : State :=
  let s := { s with ports := mapPorts (fun _ p => p.takeFrame) s.ports }
  let s := s.applyPending.tickCounts
  { s with ports := mapPorts s.startFrame s.ports }

/-! ### Bits and moments (R1, R24, log 3) -/

/-- The nanoseconds that a number of bits take in a nominal frame, rounded up, so that no bit less is sent
in them. -/
def bitsNs (bits : Nat) : Nat := (bits * Config.frameNs + Config.frameBits - 1) / Config.frameBits

/-- The bit of the system frame that begins at a moment, counted from the last system frame start. -/
def bitsAfter (lastStart moment : Nat) : Place :=
  Fin.ofNat Config.frameBits
    (((((moment : Int) - lastStart) % Config.frameNs).toNat * Config.frameBits + Config.frameNs / 2) /
      Config.frameNs)

/-- The whole bits of the system frame in progress that have been sent at a moment, 288 at most (R27). -/
def State.bitsSent (s : State) (moment : Nat) : Nat :=
  min Config.frameBits ((moment - s.ref.lastStart) * Config.frameBits / Config.frameNs)

/-- What a re-acquiring mark does to a port beside its system frame start: the frame in progress, as it
stood `before`, ends with the bits sent, its transmit frame position moves, and the slip buffer of an
enabled port is recentred (R27, R34). -/
def Port.reacquire (p before : Port) (sent : Nat) : Port :=
  { p with txLast := (before.endFrame sent).txLast, rxFirst := (before.endFrame sent).rxFirst,
           txPlace := p.txPlace + Fin.ofNat Config.frameBits sent,
           slip := if p.config.enable then p.slip.recentre else p.slip }

/-! ### The reference monitor (R24 to R27) -/

/-- A system frame start at a moment, in the state the monitor keeps or enters. -/
def State.startAt (s : State) (moment : Nat) (r : RefMonitor) : State :=
  State.frameStart { s with ref := { r with point := moment, lastStart := moment } }

/-- The re-acquiring mark (R27). -/
def State.reacquireAt (s : State) (moment : Nat) : State :=
  let t := s.startAt moment
    { s.ref with state := .refOk, windowOpen := false, missed := 0, good := 0, lastMark := none }
  { t with ports := mapPorts (fun n p => p.reacquire s.ports[n] (s.bitsSent moment)) t.ports }

/-- A mark in REF_OK (R24). -/
def State.markOk (s : State) (moment : Nat) : State :=
  if s.ref.windowOpen then
    if s.ref.point ≤ moment ∧ moment + Config.frameNs ≤ s.ref.point + Config.windowCloseNs then
      { s with ref := { s.ref with point := moment, missed := 0, windowOpen := false } }
    else s
  else if s.ref.point + Config.windowOpenNs ≤ moment ∧ moment ≤ s.ref.point + Config.frameNs then
    s.startAt moment { s.ref with missed := 0 }
  else s

/-- The good-mark run after a mark in FREEWHEEL (R26). -/
def RefMonitor.goodRun (r : RefMonitor) (moment : Nat) : Nat :=
  match r.lastMark with
  | none => 1
  | some last =>
    if last + Config.windowOpenNs ≤ moment ∧ moment ≤ last + Config.windowCloseNs then r.good + 1 else 1

/-- A mark in FREEWHEEL (R26, R27). -/
def State.markFree (s : State) (moment : Nat) : State :=
  if Config.goodMarks ≤ s.ref.goodRun moment then s.reacquireAt moment
  else { s with ref := { s.ref with good := s.ref.goodRun moment, lastMark := some moment } }

/-- A reference mark of the selected source (R23). -/
def State.mark (s : State) (moment : Nat) : State :=
  match s.ref.state with
  | .refOk => s.markOk moment
  | .freewheel => s.markFree moment

/-! ### Marks of the port's own stream (R23, R103) -/

/-- A mark at a moment would be the re-acquiring one (R26, R27). -/
def State.reacquires (s : State) (moment : Nat) : Bool :=
  s.ref.state == .freewheel && decide (Config.goodMarks ≤ s.ref.goodRun moment)

/-- The port gives its marks by its own stream, at a place from which `count` bits end in the system frame
after the one in which they begin. -/
def Port.marksLate (p : Port) (count : Nat) : Bool :=
  p.inward && decide (Config.frameBits < p.offset p.framer.place + count)

/-- The moment at which a bit of the system frame in progress is sent, by its number. -/
def State.bitMoment (s : State) (offset : Nat) : Nat := s.ref.lastStart + bitsNs offset

/-- The selected port's mark in its own stream that falls in the system frame in progress, where the
overhead byte that it begins ends after the next start and no bit of it has been given yet (R23, log 10). -/
def State.lateMark (s : State) : Option Nat :=
  match s.ref.selection with
  | .port n =>
    if s.ports[n].aligned = true ∧ s.ports[n].framer.overhead = [] ∧ s.ports[n].marksLate 8 = true then
      some (s.bitMoment (s.ports[n].offset s.ports[n].framer.place))
    else none
  | .external => none

/-- That mark is taken before the oscillator's start, which it precedes. -/
def State.takeLateMark (s : State) : State :=
  match s.lateMark with
  | some m => s.mark m
  | none => s

end Sys2Proof.Machine
end

