-- ==== Sys2Proof/Machine/Line.lean ====
section
/-! DEFINITION. The events of a line port: LOS_n, the framer's, the slip buffer's write side and the
all-ones periods (01, 1.2 and 1.3; 02, 2.3; 08, 8.1). -/

namespace Sys2Proof.Machine

/-! ### LOS_n (R10) -/

/-- LOS_ASSERTED. -/
def execLosAsserted (n : PortNo) (s : State) : Host.Outcome State Fault Refusal :=
  .next (s.changePort n ({ s.ports[n] with los := true }).followLos)

/-- LOS_DEASSERTED. -/
def execLosDeasserted (n : PortNo) (s : State) : Host.Outcome State Fault Refusal :=
  .next (s.changePort n ({ s.ports[n] with los := false }).followLos)

/-! ### The framer (R3 to R5) -/

/-- The search examines received bits one by one: the bits it has examined last and these make the windows,
and the first window that is binary 1011 is a candidate, its first bit's place the candidate position (R3).
Where none is, the search goes on after them. It takes place in SEARCH that is not forced (R8); the bits
begin where the search stands, or at `first` where it begins with the next bit received. -/
def Port.candidate (p : Port) (first : Place) (bits : List Bool) : Port :=
  if p.framer.state = .search ∧ p.forced = false then
    let first := p.framer.next.getD first
    let taken := p.received first bits
    let window := p.framer.recent ++ taken
    match firstMatch window with
    | some k =>
      { p with framer := { p.framer with
        state := .verify, verified := 0, next := none, recent := [],
        place := first - Fin.ofNat Config.frameBits p.framer.recent.length + Fin.ofNat Config.frameBits k } }
    | none =>
      { p with framer := { p.framer with
        next := some (first + Fin.ofNat Config.frameBits taken.length), recent := lastThree window } }
  else p

/-- CANDIDATE_FOUND. -/
def execCandidateFound (n : PortNo) (search : Examined) (s : State) :
    Host.Outcome State Fault Refusal :=
  .next (s.changePort n (s.ports[n].candidate search.first search.bits))

/-- The alignment nibble is correct (R2). -/
def nibbleOk (nibble : List Bool) : Bool := nibble == alignmentBits

/-- The overhead byte of a frame handed on, its nibble examined: it is slot 0 of the frame, and with its
eighth bit its symbol is counted (R6, R31, R146). The second part says whether a code was recognized. -/
def Port.handOn (p : Port) (seen : List Bool) : Port × Bool :=
  let q := { p with slip := p.slip.header seen }
  if seen.length < 8 then ({ q with framer := { p.framer with overhead := seen } }, false)
  else ({ q with framer := { p.framer with overhead := [] } }).countSymbol (bitsNibble (seen.drop 4))

/-- The frame whose nibble has been examined is delivered to the slip buffer (R6, R31, R33). -/
def Port.deliver (p : Port) (seen : List Bool) : Port × Bool :=
  ({ p with slip := p.slip.begin, rxFirst := some (p.ownIndex p.framer.place seen.length) }).handOn seen

/-- A port's change with a posting of CODE where a code was recognized (R147). -/
def State.changeCounted (s : State) (n : PortNo) (x : Port × Bool) : State :=
  (s.changePort n x.1).postIf x.2 (.port n) .code

/-- A check of VERIFY, made with the nibble's fourth bit: a miss returns to SEARCH one bit on, and the third
match enters ALIGNED with the first frame delivered (R4, R6). -/
def Port.verify (p : Port) (bits : List Bool) : Port × Bool :=
  if p.framer.state = .verify then
    let seen := p.seen bits
    if seen.length < 4 then ({ p with framer := { p.framer with overhead := seen } }, false)
    else if nibbleOk (seen.take 4) then
      if p.framer.verified < 2 then
        ({ p with framer := { p.framer with verified := p.framer.verified + 1, overhead := [] } }, false)
      else p.toAligned.deliver seen
    else (p.missed (seen.take 4), false)
  else (p, false)

/-- VERIFY_CHECK. -/
def execVerifyCheck (n : PortNo) (nibble symbol : List Bool) (s : State) :
    Host.Outcome State Fault Refusal :=
  .next (s.changeCounted n (s.ports[n].verify (nibble ++ symbol)))

/-- A frame received in ALIGNED: with its fourth bit the nibble is examined, and the frame is delivered unless
the fourth errored nibble takes the framer out of ALIGNED (R5, R7); the bits after it are those of its
symbol. -/
def Port.receive (p : Port) (bits : List Bool) : Port × Bool :=
  if p.aligned then
    let seen := p.seen bits
    if 4 ≤ p.framer.overhead.length then p.handOn seen
    else if seen.length < 4 then ({ p with framer := { p.framer with overhead := seen } }, false)
    else if nibbleOk (seen.take 4) then
      ({ p with framer := { p.framer with erroredRun := 0 } }).deliver seen
    else
      let q := { p with framer := { p.framer with
        erroredRun := p.framer.erroredRun + 1,
        erroredCount := satSucc Config.counterMax p.framer.erroredCount } }
      if 4 ≤ q.framer.erroredRun then (q.missed (seen.take 4), false)
      else q.deliver seen
  else (p, false)

/-- The frame of an INWARD loop begins at the oscillator's coming start, and the command takes its mark before
that start: the mark is the re-acquiring one, and R27 lets either be taken first. That the moment of the command
says which, the coming start's or another, is a DESIGN CHOICE (log 10). -/
def State.markBeforeStart (s : State) (n : PortNo) (moment : Nat) : Bool :=
  s.ports[n].offset s.ports[n].framer.place == 0 && moment == s.ref.lastStart + Config.frameNs &&
    s.reacquires moment

/-- The moment of the frame's first bit: the command's on the line; on the port's own stream the moment
at which that bit of it was sent, which is the system frame start where the frame position is (R23, R103),
or the coming one where its mark is taken before it (R27). -/
def State.markMoment (s : State) (n : PortNo) (moment : Nat) : Nat :=
  if s.ports[n].inward = true ∧ s.markBeforeStart n moment = false then
    s.bitMoment (s.ports[n].offset s.ports[n].framer.place)
  else moment

/-- These bits begin a frame of an ALIGNED port. -/
def Port.begins (p : Port) (bits : List Bool) : Bool :=
  p.aligned && p.framer.overhead.isEmpty && !bits.isEmpty

/-- The frame's mark, where the port is the selected reference; it falls at the frame's first bit,
before its nibble is examined (R23, log 7). A mark that fell before the last system frame start has been
taken there (`State.takeLateMark`). -/
def State.frameMark (s : State) (n : PortNo) (moment : Nat) (bits : List Bool) : State :=
  if s.ports[n].begins bits = true ∧ s.ref.selection = .port n ∧
      s.ports[n].marksLate (bits.take 8).length = false then
    s.mark (s.markMoment n moment)
  else s

/-- Where the system frame begins in the counting of an ALIGNED port's places, from the moment of the
first bit of a frame received on the line (log 10); the framer does not move its own place (R5). -/
def Port.locate (p : Port) (lastStart moment : Nat) (bits : List Bool) : Port :=
  if p.begins bits = true ∧ p.inward = false then
    { p with txPlace := p.framer.place - bitsAfter lastStart moment }
  else p

/-- ALIGNED_FRAME_RECEIVED. The system frame start that a mark makes falls with the frame's first bit and the
frame's own start with its nibble (R31), so the previous frame's completion can be commanded before this
command, or between its first bit and the rest: R32 lets either of start and completion be taken first. -/
def execAlignedFrameReceived (n : PortNo) (moment : Nat) (nibble symbol : List Bool) (s : State) :
    Host.Outcome State Fault Refusal :=
  let bits := nibble ++ symbol
  let t := s.frameMark n moment bits
  .next (t.changeCounted n ((t.ports[n].locate t.ref.lastStart moment bits).receive bits))

/-! ### The write side (R31) -/

/-- The bits of the slot in progress of the frame being written, where they are there (R31, R103). -/
def Port.nextSlot (p : Port) (bits : List Bool) : Option (List Bool) :=
  p.slip.writing.bind fun w => p.slotBits w.length bits

/-- One of the first 35 slots of the frame being written. -/
def Port.writeSlot (p : Port) (bits : List Bool) : Port :=
  match p.nextSlot bits with
  | some b => { p with slip := p.slip.writeSlot b }
  | none => p

/-- SLIP_BUFFER_SLOT_WRITTEN. -/
def execSlipBufferSlotWritten (n : PortNo) (bits : List Bool) (s : State) :
    Host.Outcome State Fault Refusal :=
  .next (s.changePort n (s.ports[n].writeSlot bits))

/-- The last slot is written and the frame joins the waiting frames. -/
def Port.complete (p : Port) (bits : List Bool) : Port :=
  match p.nextSlot bits with
  | some b => { p with slip := p.slip.complete b }
  | none => p

/-- FRAME_WRITE_COMPLETE. -/
def execFrameWriteComplete (n : PortNo) (bits : List Bool) (s : State) : Host.Outcome State Fault Refusal :=
  .next (s.changePort n (s.ports[n].complete bits))

/-! ### All-ones periods (R11) -/

/-- The all-ones run after a period, and AIS_IN at the third all-ones one. -/
def Port.onesPeriod (p : Port) (ones : Bool) : Port :=
  if ones then
    { p with framer := { p.framer with allOnesRun := satSucc 3 p.framer.allOnesRun },
             defects := { p.defects with aisIn := p.defects.aisIn || decide (2 ≤ p.framer.allOnesRun) } }
  else { p with framer := { p.framer with allOnesRun := 0 } }

/-- Bits of the period in progress are received, no more than it still has to come; its last bit ends it
and the next one begins (R11, R103). -/
def Port.periodBits (p : Port) (first : Place) (bits : List Bool) : Port :=
  if p.config.enable = true ∧ p.aligned = false then
    let period := p.framer.period
    let first := period.next.getD first
    let taken := p.received first (bits.take (Config.frameBits - period.count))
    let next := some (first + Fin.ofNat Config.frameBits taken.length)
    let ones := period.ones && taken.all id
    if period.count + taken.length < Config.frameBits then
      { p with framer := { p.framer with period := ⟨next, period.count + taken.length, ones⟩ } }
    else ({ p with framer := { p.framer with period := ⟨next, 0, true⟩ } }).onesPeriod ones
  else p

/-- ALL_ONES_PERIOD. -/
def execAllOnesPeriod (n : PortNo) (period : Examined) (s : State) : Host.Outcome State Fault Refusal :=
  .next (s.changePort n (s.ports[n].periodBits period.first period.bits))

end Sys2Proof.Machine
end

