-- ==== Sys2Proof/Machine/Management.lean ====
section
/-! DEFINITION. The management ports, the arbiter and the executor's hand-over and placing (10). -/

namespace Sys2Proof.Machine

/-! ### Bus access -/

/-- Port S's slave address (R172). -/
def State.address (s : State) : BitVec 7 := Config.baseAddress + s.straps.setWidth 7

/-- A transaction can begin: none runs, or a status read, which the beginning of the next one shows to have
ended (log 11). -/
def Bus.isFree : Bus → Bool
  | .free | .status _ => true
  | .writing _ _ | .reading _ _ | .missed => false

/-- A transaction can begin on a port: RST is high and the port's bus is free (R170, R184). -/
def State.busFree (s : State) (p : MPortId) : Bool := !s.rst && (s.mport p).bus.isFree

/-- Port S acknowledges a start followed by an address, in either direction: its own alone, and none while RST
is low or the transaction is one that was running as RST rose (R172, R184). -/
def State.acknowledges (s : State) (address : BitVec 7) : Bool := s.busFree .s && address == s.address

/-- The port's bus with no transaction running and nothing sent. -/
def MPort.quiet (x : MPort) : MPort := { x with bus := .free, sent := [] }

/-- An I2C transaction begins: with its own address port S acknowledges and acts; another address is not
acknowledged (R172). -/
def State.addressed (s : State) (address : BitVec 7) (act : State → State) : State :=
  if s.acknowledges address then act { s with acks := 1 }
  else if s.busFree .s then { s with portS := s.portS.quiet, acks := 0 }
  else s

/-! ### Writing a request (R173 to R175) -/

/-- Bytes of a frame of declared length L that belong to it (R173). -/
def frameSize (declared : Byte) : Nat :=
  if declared.toNat ≤ Config.maxParams then 3 + declared.toNat else 3

/-- The bytes stored from a write: those after the frame is complete are ignored (R173). -/
def storeFrame (bytes : List Byte) : List Byte :=
  match bytes with
  | _ :: _ :: declared :: _ => bytes.take (frameSize declared)
  | _ => bytes

/-- The frame in the request buffer is complete (R173). -/
def frameComplete (buffer : List Byte) : Bool :=
  match buffer with
  | _ :: _ :: declared :: _ => decide (frameSize declared ≤ buffer.length)
  | _ => false

/-- The port can take a request: IDLE or ANSWERED (R170). -/
def TxnState.takes : TxnState → Bool
  | .idle | .answered => true
  | .loading | .waiting | .executing => false

/-- A WRITE_REQUEST taken (R173) or refused (R175). -/
def MPort.write (x : MPort) (bits : List Bool) : MPort :=
  if x.txn.takes then
    { x with txn := .loading, request := storeFrame (wholeBytes bits), response := [],
             bus := .writing true (unfinishedBits bits), sent := [] }
  else { x with refused := true, bus := .writing false (unfinishedBits bits), sent := [] }

/-- More bits of a write: its bytes are stored where it was taken, and not where it was refused (R173, R175). -/
def MPort.writeMore (x : MPort) (bits : List Bool) : MPort :=
  match x.bus with
  | .writing true shift =>
    { x with request := storeFrame (x.request ++ wholeBytes (shift ++ bits)),
             bus := .writing true (unfinishedBits (shift ++ bits)) }
  | .writing false shift => { x with bus := .writing false (unfinishedBits (shift ++ bits)) }
  | .free | .reading _ _ | .status _ | .missed => x

/-- Status copies sent as they stand, REFUSED left as it is (R171, R172). -/
def State.statusCopies (s : State) (p : MPortId) (count : Nat) : State :=
  s.setMport p { s.mport p with
    sent := (s.mport p).sent ++ List.replicate count (s.statusByte p) }

/-- What a port gives for the bits of a write, of which `had` of the byte in progress came before: port M sends
a status copy for each byte that begins (R171), and port S acknowledges each byte that ends, stored or not
(R172, R175). -/
def State.writeOut (s : State) (p : MPortId) (had more : Nat) : State :=
  match p with
  | .m => s.statusCopies .m (bytesBegun had more)
  | .s => { s with acks := s.acks + (had + more) / 8 }

/-- A WRITE_REQUEST on a port; port S acknowledges the operation byte, and its last operation is WRITE_REQUEST
(R172). -/
def State.writeOn (s : State) (p : MPortId) (bits : List Bool) : State :=
  let t := (s.setMport p ((s.mport p).write bits)).writeOut p 0 bits.length
  match p with
  | .m => t
  | .s => { t with lastOp := .writeRequest, acks := t.acks + 1 }

/-- More bits of a write that runs; each status copy is the byte as it stands then (R171, R177). -/
def State.writeOnMore (s : State) (p : MPortId) (bits : List Bool) : State :=
  match (s.mport p).bus with
  | .writing _ shift => (s.setMport p ((s.mport p).writeMore bits)).writeOut p shift.length bits.length
  | .free | .reading _ _ | .status _ | .missed => s

/-- The bits of a WRITE_REQUEST transaction: its first ones, or more of them. Port S is reached by its own
address alone (R172). -/
def State.writePart (s : State) : Via → BusPart (List Bool) → State
  | .spi, .begins bits => if s.busFree .m then s.writeOn .m bits else s
  | .spi, .further bits => s.writeOnMore .m bits
  | .i2c a, .begins bits => s.addressed a fun s => s.writeOn .s bits
  | .i2c a, .further bits => if a = s.address then s.writeOnMore .s bits else s

/-- WRITE_REQUEST. -/
def execWriteRequest (via : Via) (bits : BusPart (List Bool)) (s : State) :
    Host.Outcome State Fault Refusal :=
  .next (s.writePart via bits)

/-- A write transaction ends: a taken frame waits where it is complete and is discarded where it is
not (R174); a refused one leaves nothing (R175), and one not taken leaves the bus to the next (R184). -/
def MPort.endWrite (x : MPort) : MPort :=
  match x.bus with
  | .writing true _ =>
    if frameComplete x.request then { x with txn := .waiting, bus := .free }
    else { x with txn := .idle, request := [], bus := .free }
  | .writing false _ | .missed => { x with bus := .free }
  | .free | .reading _ _ | .status _ => x

/-- WRITE_TRANSACTION_END. -/
def execWriteTransactionEnd (p : MPortId) (s : State) : Host.Outcome State Fault Refusal :=
  .next (s.setMport p (s.mport p).endWrite)

/-! ### Reading a response (R176) -/

/-- The bytes of a response read from the `first` on: the frame and then zeros where it is a read in
ANSWERED, zeros otherwise. -/
def MPort.readBytes (x : MPort) (live : Bool) (first count : Nat) : List Byte :=
  (List.range count).map fun k => if live then x.response.getD (first + k) 0 else 0

/-- A read of the response begins and sends some bits. -/
def MPort.read (x : MPort) (count : Nat) : MPort :=
  let live := x.txn == .answered
  { x with bus := .reading live count, sent := x.readBytes live 0 (bytesBegun 0 count) }

/-- More bits of a response read that runs. -/
def MPort.readMore (x : MPort) (count : Nat) : MPort :=
  match x.bus with
  | .reading live k =>
    { x with bus := .reading live (k + count),
             sent := x.sent ++ x.readBytes live ((k + 7) / 8) (bytesBegun k count) }
  | .free | .writing _ _ | .status _ | .missed => x

/-- The bits of a response read on a port: its first ones, or more of them. -/
def State.readPart (s : State) (p : MPortId) (part : BusPart Nat) : State :=
  match part with
  | .begins count => if s.busFree p then s.setMport p ((s.mport p).read count) else s
  | .further count => s.setMport p ((s.mport p).readMore count)

/-- READ_RESPONSE, on port M (R171). -/
def execReadResponse (count : BusPart Nat) (s : State) : Host.Outcome State Fault Refusal :=
  .next (s.readPart .m count)

/-- A read ends: a response of which every byte has been sent whole leaves the buffer, and the port is IDLE
(R176); a status read leaves nothing (R177, log 11), and one not taken leaves the bus to the next (R184). -/
def MPort.endRead (x : MPort) : MPort :=
  match x.bus with
  | .reading live count =>
    if live = true ∧ x.response.length ≤ count / 8 then { x with txn := .idle, response := [], bus := .free }
    else { x with bus := .free }
  | .status _ | .missed => { x with bus := .free }
  | .free | .writing _ _ => x

/-- READ_RESPONSE_END. -/
def execReadResponseEnd (p : MPortId) (s : State) : Host.Outcome State Fault Refusal :=
  .next (s.setMport p (s.mport p).endRead)

/-! ### The status byte (R177) -/

/-- Copies of the status byte that clear REFUSED: the first shows it as it stood (R177). -/
def State.statusRead (s : State) (p : MPortId) (count : Nat) : State :=
  match count with
  | 0 => s
  | k + 1 =>
    let t := s.statusCopies p 1
    (t.setMport p { t.mport p with refused := false }).statusCopies p k

/-- The copies of a status transaction on a port that begin with `more` further bits after `had`; they clear
REFUSED where `clears` (R177), and leave it otherwise (R172). -/
def State.statusBits (s : State) (p : MPortId) (clears : Bool) (had more : Nat) : State :=
  let t := s.setMport p { s.mport p with bus := .status (had + more) }
  if clears then t.statusRead p (bytesBegun had more) else t.statusCopies p (bytesBegun had more)

/-- The bits of a status transaction on a port, its first ones or more of them. -/
def State.statusPart (s : State) (p : MPortId) (clears : Bool) (part : BusPart Nat) : State :=
  match part with
  | .begins count =>
    if s.busFree p then (s.setMport p (s.mport p).quiet).statusBits p clears 0 count else s
  | .further count =>
    match (s.mport p).bus with
    | .status k => s.statusBits p clears k count
    | .free | .writing _ _ | .reading _ _ | .missed => s

/-- READ_STATUS, on port M (R171). -/
def execReadStatus (count : BusPart Nat) (s : State) : Host.Outcome State Fault Refusal :=
  .next (s.statusPart .m true count)

/-! ### Port S's reads and its last operation (R172) -/

/-- An I2C read by the last operation. -/
def State.readS (s : State) (part : BusPart Nat) : State :=
  match s.lastOp with
  | .readResponse => s.readPart .s part
  | .readStatus => s.statusPart .s true part
  | .writeRequest => s.statusPart .s false part

/-- The bits of an I2C read transaction, its first ones or more of them. -/
def State.i2cRead (s : State) (address : BitVec 7) (part : BusPart Nat) : State :=
  match part with
  | .begins count => s.addressed address fun s => s.readS (.begins count)
  | .further count => if address = s.address then s.readS (.further count) else s

/-- I2C_READ. -/
def execI2cRead (address : BitVec 7) (count : BusPart Nat) (s : State) : Host.Outcome State Fault Refusal :=
  .next (s.i2cRead address count)

/-- An I2C write by its data bytes, the first of them the operation byte: 0x02 and 0x03 set the last operation,
0x01 is a WRITE_REQUEST (log 18), any other value is ignored, and without a data byte nothing changes; every
data byte is acknowledged (R172). -/
def State.i2cWrite (s : State) (data : List Byte) : State :=
  match data with
  | [] => { s with portS := s.portS.quiet }
  | operation :: rest =>
    if operation = 0x01 then s.writeOn .s (slotsBits rest)
    else
      { s with
        portS := s.portS.quiet, acks := s.acks + 1 + rest.length,
        lastOp := if operation = 0x02 then .readResponse else if operation = 0x03 then .readStatus
          else s.lastOp }

/-- LAST_OPERATION_SET. -/
def execLastOperationSet (address : BitVec 7) (data : List Byte) (s : State) :
    Host.Outcome State Fault Refusal :=
  .next (s.addressed address fun s => s.i2cWrite data)

/-! ### Whole transactions and port M's data out (R171, R172) -/

/-- The operation byte of an SPI transaction by the bits shifted in, once it is whole (R171). -/
def spiOperation (bits : List Bool) : Option Byte := (wholeBytes bits).head?

/-- The commands of an SPI transaction by the bits it shifts in between the edges of CS_n; an operation byte of
any other value, or no whole byte, makes none (R171). -/
def spiTransaction (bits : List Bool) : List Instr :=
  match spiOperation bits with
  | some op =>
    if op = 0x01 then [.writeRequest .spi (.begins (bits.drop 8)), .writeTransactionEnd .m]
    else if op = 0x02 then [.readResponse (.begins (bits.length - 8)), .readResponseEnd .m]
    else if op = 0x03 then [.readStatus (.begins (bits.length - 8)), .readResponseEnd .m]
    else []
  | none => []

/-- The operation byte is whole and one of the three (R171). -/
def spiSelects (bits : List Bool) : Bool :=
  match spiOperation bits with
  | some op => op == 0x01 || op == 0x02 || op == 0x03
  | none => false

/-- Port M's data out: at high impedance, `none`, while CS_n is high; else the bits shifted out with the bits
shifted in so far. They are 0x00 with the operation byte, then those of the bytes the port has begun to send, or
0x00 to the end where the operation byte is none of the three (R171). At high impedance too while RST is low, and
until the next falling edge of CS_n where a transaction was running as RST rose (R184; the latter DEDUCED,
log 11). -/
def State.spiDataOut (s : State) (shiftedIn : Option (List Bool)) : Option (List Bool) :=
  if s.rst = true ∨ s.portM.bus = .missed then none
  else shiftedIn.map fun bits =>
    if spiSelects bits then (slotsBits (0 :: s.portM.sent)).take bits.length
    else List.replicate bits.length false

/-- The commands that an I2C write transaction makes by its data bytes (R172). -/
def i2cTransaction (address : BitVec 7) : List Byte → List Instr
  | [] => [.lastOperationSet address []]
  | op :: rest =>
    if op = 0x01 then [.writeRequest (.i2c address) (.begins (slotsBits rest)), .writeTransactionEnd .s]
    else [.lastOperationSet address (op :: rest)]

/-! ### Arbiter and executor (R178 to R181) -/

/-- The port the arbiter hands on: the one that is not the last served goes first (R178). -/
def State.nextPort (s : State) : Option MPortId :=
  if s.portM.txn = .waiting then
    if s.portS.txn = .waiting then some (otherPort s.lastServed) else some .m
  else if s.portS.txn = .waiting then some .s
  else none

/-- The request of a complete frame, with its answer already where it is a BAD_REQUEST (R180). -/
def execution (p : MPortId) (frame : List Byte) : Execution :=
  { port := p, code := frame.getD 0 0, tag := frame.getD 1 0, request := parseFrame frame,
    answer := if (parseFrame frame).isSome then none else some (.bare .badRequest) }

/-- The hand-over of a port's request (R178). -/
def State.handOn (s : State) (p : MPortId) : State :=
  { s.setMport p { s.mport p with txn := .executing, request := [] } with
    executor := some (execution p (s.mport p).request), lastServed := p }

/-- HAND_OVER. -/
def execHandOver (s : State) : Host.Outcome State Fault Refusal :=
  match s.executor, s.nextPort with
  | none, some p => .next (s.handOn p)
  | _, _ => .next s

/-- The response is placed, the port is ANSWERED and the executor is free (R179, R181). -/
def State.place (s : State) (x : Execution) (a : Answer) : State :=
  { s.setMport x.port { s.mport x.port with txn := .answered, response := responseFrame x.code x.tag a } with
    executor := none }

/-- RESPONSE_PLACED. -/
def execResponsePlaced (s : State) : Host.Outcome State Fault Refusal :=
  match s.executor with
  | some x =>
    match x.answer with
    | some a => .next (s.place x a)
    | none => .next s
  | none => .next s

end Sys2Proof.Machine
end

