-- ==== Sys2Proof/Machine/PortRequests.lean ====
section
/-! DEFINITION. The port requests: PORT_SET, PORT_QUERY, PORT_CLEAR_COUNTS (01, 1.6), PORT_LOOP and
PORT_SEND_CODE (08), and REF_SELECT (02, 2.2). -/

namespace Sys2Proof.Machine

/-- A request that names a port: BAD_PARAM where the number is above 15. -/
def onPort (port : Byte) (act : PortNo → State → Answer × State) (s : State) : Answer × State :=
  match portNo port with
  | some n => act n s
  | none => (.bare .badParam, s)

/-! ### PORT_SET (R19) -/

/-- The checked one-bit fields of a PORT_SET: enable, code response, far-alarm send. -/
structure PortSetBits where
  enable : Option Bool
  codeResponse : Option Bool
  farSend : Option Bool

/-- At least one field of a PORT_SET is present (R19 step 2). -/
def anyField (q : PortSetReq) : Bool :=
  q.enable.isSome || q.idleCode.isSome || q.codeResponse.isSome || q.farSend.isSome ||
    q.threshold.isSome || q.loopTimeout.isSome

/-- Steps 2 and 3 of R19. -/
def portSetBits (q : PortSetReq) : Option PortSetBits :=
  match optBit? q.enable, optBit? q.codeResponse, optBit? q.farSend with
  | some en, some cr, some fs =>
    if anyField q = true ∧ q.threshold ≠ some 0 then some ⟨en, cr, fs⟩ else none
  | _, _, _ => none

/-- The present fields stored, the enable apart (R19). -/
def PortConfig.store (c : PortConfig) (q : PortSetReq) (b : PortSetBits) : PortConfig :=
  { c with idleCode := q.idleCode.getD c.idleCode, codeResponse := b.codeResponse.getD c.codeResponse,
           farSend := b.farSend.getD c.farSend, threshold := q.threshold.getD c.threshold,
           loopTimeout := q.loopTimeout.getD c.loopTimeout }

/-- The change of enable, where there is one (R17, R18). -/
def Port.setEnable (p : Port) : Option Bool → Port
  | some true => if p.config.enable then p else p.enableUp
  | some false => if p.config.enable then p.disableDown else p
  | none => p

/-- The port after an accepted PORT_SET: every field stored first, then the enable (R19). -/
def Port.set (p : Port) (q : PortSetReq) (b : PortSetBits) : Port :=
  ({ p with config := p.config.store q b }).setEnable b.enable

def doPortSet (q : PortSetReq) (s : State) : Answer × State :=
  onPort q.port (fun n s =>
    match portSetBits q with
    | some b => (.ok [], s.changePort n (s.ports[n].set q b))
    | none => (.bare .badParam, s)) s

/-- PORT_SET. -/
def execPortSet (q : PortSetReq) (s : State) : Host.Outcome State Fault Refusal :=
  carryOut (.portSet q) (doPortSet q) s

/-! ### PORT_QUERY and PORT_CLEAR_COUNTS (R20, R21) -/

/-- PORT_QUERY. -/
def execPortQuery (port : Byte) (s : State) : Host.Outcome State Fault Refusal :=
  carryOut (.portQuery port) (onPort port fun n s => (.ok (s.ports[n].image n), s)) s

/-- The slip counter and the errored-alignment counter at 0. -/
def Port.clearCounts (p : Port) : Port :=
  { p with framer := { p.framer with erroredCount := 0 }, slip := { p.slip with slips := 0 } }

/-- PORT_CLEAR_COUNTS. -/
def execPortClearCounts (port : Byte) (s : State) : Host.Outcome State Fault Refusal :=
  carryOut (.portClearCounts port) (onPort port fun n s =>
    (.ok (countBytes s.ports[n].slip.slips ++ countBytes s.ports[n].framer.erroredCount),
      { s with ports := s.ports.set n s.ports[n].clearCounts })) s

/-! ### PORT_LOOP (R151) -/

/-- The loop states that PORT_LOOP sets (R151, R189). -/
def loopCommand? (b : Byte) : Option LoopState :=
  if b = 0 then some .off else if b = 1 then some .returnHost else if b = 2 then some .inwardHost else none

def doPortLoop (port command : Byte) (s : State) : Answer × State :=
  onPort port (fun n s =>
    match loopCommand? command with
    | none => (.bare .badParam, s)
    | some l =>
      if s.ports[n].config.enable then
        (.ok [s.ports[n].maint.loop.number, l.number], s.changePort n (s.ports[n].setLoop l))
      else (.bare .wrongState, s)) s

/-- PORT_LOOP. -/
def execPortLoop (port command : Byte) (s : State) : Host.Outcome State Fault Refusal :=
  carryOut (.portLoop port command) (doPortLoop port command) s

/-! ### PORT_SEND_CODE (R158) -/

/-- A burst set, replaced or ended; a count of 0 with no burst running changes nothing. -/
def Maint.setBurst (m : Maint) (c : Code) (count : Nat) : Maint :=
  if count = 0 ∧ m.burstLeft = 0 then m
  else { m with burstCode := c, burstLeft := count, burstRunning := decide (0 < count) }

def doPortSendCode (port code : Byte) (count : Half) (s : State) : Answer × State :=
  onPort port (fun n s =>
    match code? code with
    | none => (.bare .badParam, s)
    | some c =>
      if s.ports[n].config.enable then
        let q := { s.ports[n] with maint := s.ports[n].maint.setBurst c count.toNat }
        (.ok (countBytes s.ports[n].maint.burstLeft), { s with ports := s.ports.set n q })
      else (.bare .wrongState, s)) s

/-- PORT_SEND_CODE. -/
def execPortSendCode (port code : Byte) (count : Half) (s : State) : Host.Outcome State Fault Refusal :=
  carryOut (.portSendCode port code count) (doPortSendCode port code count) s

/-! ### REF_SELECT (R29) -/

/-- The selection a REF_SELECT names; with EXTERNAL the port byte is ignored. -/
def refSelection? (selection port : Byte) : Option RefSelection :=
  if selection = 0 then some .external
  else if selection = 1 then (portNo port).map .port
  else none

/-- A new selection is stored and the monitor enters FREEWHEEL; the selection in force changes
nothing. -/
def RefMonitor.choose (r : RefMonitor) (x : RefSelection) : RefMonitor :=
  if r.selection = x then r else { r.lose with selection := x }

def doRefSelect (selection port : Byte) (s : State) : Answer × State :=
  match refSelection? selection port with
  | none => (.bare .badParam, s)
  | some x =>
    let r := s.ref.choose x
    (.ok (r.selectionBytes ++ [r.state.number]), { s with ref := r })

/-- REF_SELECT. -/
def execRefSelect (selection port : Byte) (s : State) : Host.Outcome State Fault Refusal :=
  carryOut (.refSelect selection port) (doRefSelect selection port) s

end Sys2Proof.Machine
end

