-- ==== Sys2Proof/Machine/Protection.lean ====
section
/-! DEFINITION. Protection: PROTECT, UNPROTECT and SWITCH, the fail requests, and the changes of a
context's request state and selected source (07). -/

namespace Sys2Proof.Machine

/-! ### The context's own changes -/

/-- A request comes into force and selects a source; a running wait-to-restore timer is stopped and
set to 0 (R133, R134, R136, R139). -/
def Context.enter (c : Context) (q : ReqState) (sel : Selected) : Context :=
  { c with request := q, selected := sel, wtrLeft := 0, wtrMark := .plain }

/-- The re-evaluation from the health of the sources (R135): working and standby failed or good. -/
def Context.reevaluate (c : Context) (workingBad standbyBad : Bool) : Context :=
  if standbyBad then c.enter .failStandby .working
  else if workingBad then c.enter .failWorking .standby
  else
    match c.mode with
    | .revertive => c.enter .none .working
    | .nonRevertive => c.enter .none c.selected

/-- A working failure has cleared in FAIL_WORKING: RESTORE_WAIT with its timer started, or NONE with
STANDBY kept (R136, R138, R139). A timer set at the coming frame start is not counted there. -/
def Context.workingCleared (c : Context) (turn : Turn) : Context :=
  match c.mode with
  | .revertive =>
    { c with request := .restoreWait, selected := .standby,
             wtrLeft := c.wtrTime.toNat * Config.longUnitFrames,
             wtrMark := match turn with | .before => .fresh | .after => .plain }
  | .nonRevertive => c.enter .none .standby

/-- A standby fail (true) or standby fail clear (false) (R136). -/
def Context.takeStandby (c : Context) (workingBad standbyBad : Bool) (fail : Bool) : Context :=
  if fail then
    match c.request with
    | .holdWorking | .failStandby => c
    | _ => c.enter .failStandby .working
  else
    match c.request with
    | .failStandby => c.reevaluate workingBad standbyBad
    | _ => c

/-- A working fail (true) or working fail clear (false) (R136). -/
def Context.takeWorking (c : Context) (turn : Turn) (fail : Bool) : Context :=
  if fail then
    match c.request with
    | .none | .restoreWait | .manualStandby | .manualWorking => c.enter .failWorking .standby
    | .holdWorking | .failStandby | .forceStandby | .failWorking => c
  else
    match c.request with
    | .failWorking => c.workingCleared turn
    | _ => c

/-- What is handed in one evaluation step: the standby request first, then the working request to the
request state that results (R137). -/
def Context.takeFails (c : Context) (turn : Turn) (workingBad standbyBad : Bool)
    (standby working : Option Bool) : Context :=
  let c := standby.elim c (c.takeStandby workingBad standbyBad)
  working.elim c (c.takeWorking turn)

/-- The SWITCH commands (R132, R189). -/
inductive SwitchCommand where
  | holdWorking
  | forceStandby
  | manualStandby
  | manualWorking
  | clear
  deriving DecidableEq, Repr

def switchCommand? (b : Byte) : Option SwitchCommand :=
  if b = 1 then some .holdWorking
  else if b = 2 then some .forceStandby
  else if b = 3 then some .manualStandby
  else if b = 4 then some .manualWorking
  else if b = 5 then some .clear
  else none

/-- The context after a SWITCH command, or none where the command is refused (R133 to R135). -/
def Context.command (c : Context) (workingBad standbyBad : Bool) : SwitchCommand → Option Context
  | .holdWorking =>
    match c.request with
    | .holdWorking => none
    | _ => some (c.enter .holdWorking .working)
  | .forceStandby =>
    match c.request with
    | .holdWorking | .failStandby | .forceStandby => none
    | .failWorking | .manualStandby | .manualWorking | .restoreWait | .none =>
      some (c.enter .forceStandby .standby)
  | .manualStandby =>
    match c.request with
    | .none | .restoreWait | .manualWorking =>
      if standbyBad then none else some (c.enter .manualStandby .standby)
    | .manualStandby | .failWorking | .forceStandby | .failStandby | .holdWorking => none
  | .manualWorking =>
    match c.request with
    | .none | .restoreWait | .manualStandby =>
      if workingBad then none else some (c.enter .manualWorking .working)
    | .manualWorking | .failWorking | .forceStandby | .failStandby | .holdWorking => none
  | .clear =>
    match c.request with
    | .holdWorking | .forceStandby | .manualStandby | .manualWorking =>
      some (c.reevaluate workingBad standbyBad)
    | .none | .restoreWait | .failWorking | .failStandby => none

/-! ### PROTECT (R127, R128) -/

/-- A context at its binding (R125). -/
def newContext (id : Nat) (mode : Mode) (wtr : Option Byte) : Context :=
  { record := id, mode := mode, wtrTime := wtr.getD 30, request := .none, selected := .working,
    wtrLeft := 0, wtrMark := .plain, switches := 0 }

/-- The standby and the mode a PROTECT asks for, where they pass step 5 of R127. -/
def Record.canProtect (r : Record) (q : ProtectReq) : Option (End × Mode) :=
  match toEnd r.width q.standby, mode? q.mode with
  | some e, some mode =>
    if r.kind ≠ .duplex ∧ q.wtr ≠ some 0 ∧ (∀ t ∈ e.triples r.width .rx, t ∉ r.triples) then
      some (e, mode)
    else none
  | _, _ => none

/-- The record after an accepted PROTECT (R128). -/
def Record.withStandby (r : Record) (e : End) (k : Nat) : Record :=
  { r with standby := some e, healthS := some Health.good, handOverDue := true, context := some k,
           revision := r.revision + 1 }

def protectRecord (q : ProtectReq) (id : Nat) (r : Record) (s : State) : Answer × State :=
  if r.state = .retiring ∨ r.context.isSome = true ∨ r.leaving.isSome = true then wrongState r s
  else
    match r.canProtect q with
    | none => (.bare .badParam, s)
    | some (e, mode) =>
      match firstHeld s.slotMap (e.triples r.width .rx) with
      | some (t, holder) => (.slotTaken t holder, s)
      | none =>
        match s.contexts.lowestFree Config.contexts with
        | none => (.bare .noContext, s)
        | some k =>
          let r' := r.withStandby e k
          (.ok (idBytes id ++ [r'.state.number, r'.revision, byteOf k]),
            { ((s.setRecord id r').reserve (e.triples r.width .rx) id) with
              contexts := s.contexts.put k (newContext id mode q.wtr) })

/-- PROTECT. -/
def execProtect (q : ProtectReq) (s : State) : Host.Outcome State Fault Refusal :=
  carryOut (.protect q) (onRevision q.id q.expected (protectRecord q)) s

/-! ### UNPROTECT (R129) -/

/-- The record after an accepted UNPROTECT: the standby becomes the leaving standby (R44, R129). -/
def Record.unprotected (r : Record) : Record :=
  { r with standby := none, leaving := r.standby, healthS := none, handOverDue := false,
           context := none, pending := true, revision := r.revision + 1 }

def unprotectRecord (id : Nat) (r : Record) (s : State) : Answer × State :=
  if r.state = .retiring then wrongState r s
  else
    match s.contextOf r with
    | none => wrongState r s
    | some (k, c) =>
      let r' := r.unprotected
      (.ok (idBytes id ++ [r'.state.number, r'.revision, byteOf k] ++ countBytes c.switches),
        (s.unbind (some k)).setRecord id r')

/-- UNPROTECT. -/
def execUnprotect (id : Half) (expected : Byte) (s : State) : Host.Outcome State Fault Refusal :=
  carryOut (.unprotect id expected) (onRevision id expected unprotectRecord) s

/-! ### SWITCH (R132) -/

def switchRecord (command : Byte) (id : Nat) (r : Record) (s : State) : Answer × State :=
  if r.state = .retiring then wrongState r s
  else
    match s.contextOf r with
    | none => wrongState r s
    | some (k, c) =>
      match switchCommand? command with
      | none => (.bare .badParam, s)
      | some cmd =>
        match c.command r.healthAB.bad r.standbyBad cmd with
        | none => wrongState r s
        | some c' =>
          let t := s.commitContext id k c c'
          let count := ((t.contexts.get k).elim 0 fun x => x.switches)
          (.ok (idBytes id ++ [r.state.number, r.revision, c'.request.number, c'.selected.number] ++
            countBytes count), t)

/-- SWITCH. -/
def execSwitch (id : Half) (expected command : Byte) (s : State) : Host.Outcome State Fault Refusal :=
  carryOut (.switch id expected command) (onRevision id expected (switchRecord command)) s

end Sys2Proof.Machine
end

