-- ==== Sys2Proof/Machine/Supervision.lean ====
section
/-! DEFINITION. Connection supervision: the health machine (06, 6.2), one record's evaluation with
what a change of fail condition sets off (6.3), and the evaluation step. -/

namespace Sys2Proof.Machine

/-! ### The health machine (R109 to R112) -/

/-- PENDING_FAIL with the timer at the hold-off, or FAILED where the hold-off is 0 (R109). -/
def startFail (holdOff : Nat) : Health := if holdOff = 0 then ⟨.failed, 0⟩ else ⟨.pendingFail, holdOff⟩

/-- PENDING_CLEAR with the timer at ten times the clear time, or CLEAR where it is 0 (R111). -/
def startClear (clearTime : Nat) : Health :=
  if clearTime = 0 then ⟨.clear, 0⟩ else ⟨.pendingClear, Config.clearUnitIntervals * clearTime⟩

/-- One move of a direction's machine, with a defect present or absent. -/
def Health.move (h : Health) (holdOff clearTime : Nat) (defect : Bool) : Health :=
  match h.state, defect with
  | .clear, true => startFail holdOff
  | .clear, false => h
  | .pendingFail, true => if h.timer ≤ 1 then ⟨.failed, 0⟩ else ⟨.pendingFail, h.timer - 1⟩
  | .pendingFail, false => ⟨.clear, 0⟩
  | .failed, true => h
  | .failed, false => startClear clearTime
  | .pendingClear, true => ⟨.failed, 0⟩
  | .pendingClear, false => if h.timer ≤ 1 then ⟨.clear, 0⟩ else ⟨.pendingClear, h.timer - 1⟩

/-! ### One record (R107, R108) -/

/-- The source defect of a port is other than NONE (R108). -/
def State.defectAt (s : State) (p : PortNo) : Bool := s.ports[p].sourceDefect != .none

/-- A direction's health after the evaluation, read from the port of its source end. -/
def State.moved (s : State) (r : Record) (h : Health) (e : End) : Health :=
  h.move r.holdOff.toNat r.clearTime.toNat (s.defectAt e.port)

/-- The record with every direction evaluated (R107, R108). -/
def State.evaluated (s : State) (r : Record) : Record :=
  { r with healthAB := s.moved r r.healthAB r.source,
           healthBA := match r.healthBA, r.dests.head? with
             | some h, some d => some (s.moved r h d.dest)
             | h, _ => h,
           healthS := match r.healthS, r.standby with
             | some h, some e => some (s.moved r h e)
             | h, _ => h }

/-- A direction has changed its fail condition (R114). -/
def crossed (a b : Health) : Bool := a.bad != b.bad

/-- An optional direction has changed its fail condition. -/
def crossedOpt : Option Health → Option Health → Bool
  | some a, some b => crossed a b
  | _, _ => false

/-- Any direction has changed its fail condition (R114). -/
def Record.anyCrossed (r r' : Record) : Bool :=
  crossed r.healthAB r'.healthAB || crossedOpt r.healthBA r'.healthBA || crossedOpt r.healthS r'.healthS

/-- What is handed for the standby: at the first hand-over a fail where it is in the failed group, and
afterwards each change of fail condition (R116, R117). -/
def Record.standbyRequest (r r' : Record) : Option Bool :=
  if r.handOverDue then (if r'.standbyBad then some true else none)
  else if crossedOpt r.healthS r'.healthS then some r'.standbyBad else none

/-- What is handed for the working source (R116, R117). -/
def Record.workingRequest (r r' : Record) : Option Bool :=
  if r.handOverDue then (if r'.healthAB.bad then some true else none)
  else if crossed r.healthAB r'.healthAB then some r'.healthAB.bad else none

/-- The hand-over to the record's context, where one is bound (R116, R117, R137). -/
def State.handFails (s : State) (turn : Turn) (id : Nat) (r r' : Record) : State :=
  match s.contextOf r with
  | some (k, c) =>
    s.commitContext id k c
      (c.takeFails turn r'.healthAB.bad r'.standbyBad (r.standbyRequest r') (r.workingRequest r'))
  | none => s

/-- The evaluation of one ACTIVE or HELD record (R107, R114, R116, R117). The supervision unit's HEALTH and
the protection unit's SELECT of one evaluation are posted record by record, of one record HEALTH first:
R163 lets the postings of the two blocks be taken in either order (DESIGN CHOICE, log 21). -/
def State.evaluateRecord (turn : Turn) (s : State) (id : Nat) : State :=
  match s.records.get id with
  | none => s
  | some r =>
    if r.state = .active ∨ r.state = .held then
      let r' := s.evaluated r
      let t := s.setRecord id { r' with pending := r.pending || r.anyCrossed r', handOverDue := false }
      (t.postIf (r.anyCrossed r') (.record id) .health).handFails turn id r r'
    else s

/-- The evaluation step: every record in ascending order (R107, R163). -/
def State.evaluate (s : State) (turn : Turn) : State :=
  s.records.keys.foldl (State.evaluateRecord turn) s

end Sys2Proof.Machine
end

