-- ==== Sys2Proof/Machine/Timing.lean ====
section
/-! DEFINITION. The timed events: reference marks and the oscillator (02, 2.1), the supervision
interval (06), wait-to-restore (07, 7.7), the slip period (02, 2.4), the loop timer and the burst's
end (08). -/

namespace Sys2Proof.Machine

/-! ### The reference (R23 to R27) -/

/-- SFR_MARK: a rising edge on SFR, a mark while EXTERNAL is selected; edges while RST is low are
none (R23, R30). -/
def execSfrMark (moment : Nat) (s : State) : Host.Outcome State Fault Refusal :=
  if s.rst = false ∧ s.ref.selection = .external then .next (s.mark moment) else .next s

/-- The oscillator's system frame start (R24, R26). -/
def State.oscillatorStart (s : State) : State :=
  s.startAt (s.ref.point + Config.frameNs) { s.ref with windowOpen := s.ref.state == .refOk }

/-- OSCILLATOR_FRAME_START: 125 µs after the reference point, which in FREEWHEEL is the last system
frame start; in REF_OK the mark window stays open (R24, R26). A mark of the selected port's own stream that
falls before it is taken first, and the oscillator makes no start where that mark has made one (R24, R27). -/
def execOscillatorFrameStart (s : State) : Host.Outcome State Fault Refusal :=
  if s.rst then .next s
  else
    let t := s.takeLateMark
    .next (if t.ref.lastStart = s.ref.lastStart then t.oscillatorStart else t)

/-- A window has closed without a mark (R25). -/
def RefMonitor.missWindow (r : RefMonitor) : RefMonitor :=
  if Config.missedMarks ≤ r.missed + 1 then r.lose
  else { r with missed := r.missed + 1, windowOpen := false }

/-- MARK_WINDOW_CLOSE: 1 µs after the oscillator's start, where no mark has arrived in the window. -/
def execMarkWindowClose (s : State) : Host.Outcome State Fault Refusal :=
  if s.ref.state = .refOk ∧ s.ref.windowOpen = true then .next { s with ref := s.ref.missWindow }
  else .next s

/-- GOOD_MARK_TIMEOUT: 126 µs after the last mark in FREEWHEEL (R26). -/
def execGoodMarkTimeout (s : State) : Host.Outcome State Fault Refusal :=
  if s.ref.state = .freewheel then .next { s with ref := { s.ref with good := 0, lastMark := none } }
  else .next s

/-! ### Expiries at system frame starts (R100; log 8) -/

/-- An expiry of a count is there to be taken: before its frame start the count is one short of its
length, after it the expiry is due. -/
def Period.ready (p : Period) (length : Nat) : Turn → Bool
  | .before => p.expiry == .idle && p.count + 1 == length
  | .after => p.expiry == .due

/-- The expiry is taken. -/
def Period.take (p : Period) : Turn → Period
  | .before => { p with expiry := .taken }
  | .after => { p with expiry := .idle }

/-- SUPERVISION_INTERVAL_EXPIRY: every record is evaluated (R106, R107). -/
def execSupervisionIntervalExpiry (turn : Turn) (s : State) : Host.Outcome State Fault Refusal :=
  if s.interval.ready Config.intervalFrames turn then
    .next { (s.evaluate turn) with interval := s.interval.take turn }
  else .next s

/-- A timer's expiry is there to be taken. -/
def timerReady (left : Nat) (mark : TimerMark) : Turn → Bool
  | .before => left == 1 && mark == .plain
  | .after => mark == .due

/-- The wait-to-restore expiry of one record's context (R139). -/
def State.expireWait (turn : Turn) (s : State) (id : Nat) : State :=
  match s.records.get id with
  | none => s
  | some r =>
    match s.contextOf r with
    | none => s
    | some (k, c) =>
      if c.request = .restoreWait ∧ timerReady c.wtrLeft c.wtrMark turn = true ∧
          s.inService id = true then
        s.commitContext id k c (c.enter .none .working)
      else s

/-- WAIT_TO_RESTORE_EXPIRY: the expiries of one system frame start, in ascending order (R139, R163). An
expiry taken before the interchange applies its set is installed at this frame start and one taken after it
at the next, as R100 and R131 have it; the last row of R140 gives the two outcomes the other way round
(DEDUCED, log 22). -/
def execWaitToRestoreExpiry (turn : Turn) (s : State) : Host.Outcome State Fault Refusal :=
  .next (s.records.keys.foldl (State.expireWait turn) s)

/-- A port at the end of a slip period: SLIP_EXCESS raised or removed on an enabled port (R36). -/
def Port.judgeSlips (p : Port) : Port :=
  if p.config.enable then
    { p with defects := { p.defects with slipExcess := decide (p.config.threshold.toNat ≤ p.slip.periodSlips) },
             slip := { p.slip with periodSlips := 0 } }
  else { p with slip := { p.slip with periodSlips := 0 } }

/-- SLIP_PERIOD_END: every buffer judges its period, in ascending port order (R36, R163). -/
def execSlipPeriodEnd (turn : Turn) (s : State) : Host.Outcome State Fault Refusal :=
  if s.slipPeriod.ready Config.slipPeriodFrames turn then
    .next { (s.changePorts Port.judgeSlips) with slipPeriod := s.slipPeriod.take turn }
  else .next s

/-- A port at its loop timer expiry (R156). -/
def Port.expireLoop (turn : Turn) (p : Port) : Port :=
  if p.maint.loop = .returnCode ∧ timerReady p.maint.loopTimer p.maint.loopMark turn = true then
    p.setLoop .off
  else p

/-- LOOP_TIMER_EXPIRY: the expiries of one system frame start, in ascending port order (R156, R163). -/
def execLoopTimerExpiry (turn : Turn) (s : State) : Host.Outcome State Fault Refusal :=
  .next (s.changePorts (Port.expireLoop turn))

/-- The burst's last frame has been sent (R159, log 14). -/
def Maint.endBurst (m : Maint) : Maint :=
  if m.burstLeft = 0 then { m with burstRunning := false } else m

/-- SEND_CODE_BURST_END. -/
def execSendCodeBurstEnd (n : PortNo) (s : State) : Host.Outcome State Fault Refusal :=
  .next (s.changePort n { s.ports[n] with maint := s.ports[n].maint.endBurst })

end Sys2Proof.Machine
end

