-- ==== Sys2Proof/Machine/Dispatch.lean ====
section
/-! DEFINITION. The dispatch: one arm per command, each one call of the command's meaning. -/

namespace Sys2Proof.Machine

/-- The effect of a command on everything but the queue. -/
def exec (i : Instr) (s : State) : Host.Outcome State Fault Refusal :=
  match i with
  | .connect q => Sys2Proof.Machine.execConnect q s
  | .modify q => Sys2Proof.Machine.execModify q s
  | .retire id expected => Sys2Proof.Machine.execRetire id expected s
  | .hold id expected => Sys2Proof.Machine.execHold id expected s
  | .release id expected => Sys2Proof.Machine.execRelease id expected s
  | .query id => Sys2Proof.Machine.execQuery id s
  | .find port slot direction => Sys2Proof.Machine.execFind port slot direction s
  | .nextRecord start => Sys2Proof.Machine.execNextRecord start s
  | .protect q => Sys2Proof.Machine.execProtect q s
  | .unprotect id expected => Sys2Proof.Machine.execUnprotect id expected s
  | .switch id expected command => Sys2Proof.Machine.execSwitch id expected command s
  | .portSet q => Sys2Proof.Machine.execPortSet q s
  | .portQuery port => Sys2Proof.Machine.execPortQuery port s
  | .portClearCounts port => Sys2Proof.Machine.execPortClearCounts port s
  | .portLoop port command => Sys2Proof.Machine.execPortLoop port command s
  | .portSendCode port code count => Sys2Proof.Machine.execPortSendCode port code count s
  | .refSelect selection port => Sys2Proof.Machine.execRefSelect selection port s
  | .attention => Sys2Proof.Machine.execAttention s
  | .attnEnable enM enS => Sys2Proof.Machine.execAttnEnable enM enS s
  | .deviceQuery => Sys2Proof.Machine.execDeviceQuery s
  | .deviceReset => Sys2Proof.Machine.execDeviceReset s
  | .writeRequest via bits => Sys2Proof.Machine.execWriteRequest via bits s
  | .writeTransactionEnd p => Sys2Proof.Machine.execWriteTransactionEnd p s
  | .readResponse count => Sys2Proof.Machine.execReadResponse count s
  | .readResponseEnd p => Sys2Proof.Machine.execReadResponseEnd p s
  | .readStatus count => Sys2Proof.Machine.execReadStatus count s
  | .i2cRead address count => Sys2Proof.Machine.execI2cRead address count s
  | .handOver => Sys2Proof.Machine.execHandOver s
  | .responsePlaced => Sys2Proof.Machine.execResponsePlaced s
  | .rstAssert => Sys2Proof.Machine.execRstAssert s
  | .rstRelease release => Sys2Proof.Machine.execRstRelease release s
  | .losAsserted n => Sys2Proof.Machine.execLosAsserted n s
  | .losDeasserted n => Sys2Proof.Machine.execLosDeasserted n s
  | .candidateFound n search => Sys2Proof.Machine.execCandidateFound n search s
  | .verifyCheck n nibble symbol => Sys2Proof.Machine.execVerifyCheck n nibble symbol s
  | .alignedFrameReceived n moment nibble symbol => Sys2Proof.Machine.execAlignedFrameReceived n moment nibble symbol s
  | .frameWriteComplete n bits => Sys2Proof.Machine.execFrameWriteComplete n bits s
  | .allOnesPeriod n period => Sys2Proof.Machine.execAllOnesPeriod n period s
  | .sfrMark moment => Sys2Proof.Machine.execSfrMark moment s
  | .oscillatorFrameStart => Sys2Proof.Machine.execOscillatorFrameStart s
  | .markWindowClose => Sys2Proof.Machine.execMarkWindowClose s
  | .goodMarkTimeout => Sys2Proof.Machine.execGoodMarkTimeout s
  | .supervisionIntervalExpiry turn => Sys2Proof.Machine.execSupervisionIntervalExpiry turn s
  | .waitToRestoreExpiry turn => Sys2Proof.Machine.execWaitToRestoreExpiry turn s
  | .slipPeriodEnd turn => Sys2Proof.Machine.execSlipPeriodEnd turn s
  | .loopTimerExpiry turn => Sys2Proof.Machine.execLoopTimerExpiry turn s
  | .sendCodeBurstEnd n => Sys2Proof.Machine.execSendCodeBurstEnd n s
  | .slipBufferSlotWritten n bits => Sys2Proof.Machine.execSlipBufferSlotWritten n bits s
  | .lastOperationSet address data => Sys2Proof.Machine.execLastOperationSet address data s

end Sys2Proof.Machine
end

