-- ==== Sys2Proof/Safety.lean ====
section
/-! DEFINITION. What a sane state is: the invariants the spec's state tables and rules give each block,
and the two safety notions of the model, a step that goes on and a step that keeps an invariant. -/

namespace Sys2Proof.Machine

/-- A step goes on: it ends in no fault and no refusal. -/
def State.goesOn (s : State) : Prop := ∃ t, step s = .next t

/-- Every step from a state with the property ends in a state with it. -/
def StepKeeps (P : State → Prop) : Prop := ∀ s t, P s → step s = .next t → P t

/-! ### Line ports (01) -/

/-- The framer and the defect set of a port. -/
structure Port.LineInv (p : Port) : Prop where
  /-- OFF is present exactly while the port is disabled (R9). -/
  off : p.defects.off = !p.config.enable
  /-- A disabled port has no other defect (R9). -/
  disabled : p.config.enable = false →
    p.defects.sigLost = false ∧ p.defects.aisIn = false ∧ p.defects.slipExcess = false
  /-- SIG_LOST follows LOS_n outside INWARD_HOST (R10). -/
  follows : p.config.enable = true → p.maint.loop ≠ .inwardHost → p.defects.sigLost = p.los
  /-- No SIG_LOST in INWARD_HOST (R10). -/
  inward : p.maint.loop = .inwardHost → p.defects.sigLost = false
  /-- UNFRAMED stands on an enabled port outside ALIGNED, and nowhere else (R12). -/
  unframed : p.defects.unframed = (p.config.enable && !p.aligned)
  /-- Forced SEARCH holds the framer in SEARCH (R8). -/
  forced : p.forced = true → p.framer.state = .search
  /-- In ALIGNED there is no AIS_IN and the all-ones run is 0 (R6, R11). -/
  noAis : p.aligned = true → p.defects.aisIn = false ∧ p.framer.allOnesRun = 0
  onesBound : p.framer.allOnesRun ≤ 3
  /-- A frame period in progress is not complete (R11). -/
  period : p.framer.period.count < Config.frameBits
  /-- A window begins with three bits at most, and only in SEARCH that is not forced (R3, R8). -/
  window : p.framer.recent.length ≤ 3 ∧
    (p.framer.state ≠ .search ∨ p.forced = true → p.framer.recent = [] ∧ p.framer.next = none)
  /-- An overhead byte in progress is not complete, and there is none in SEARCH; in VERIFY its nibble is not
  (R4, R5). -/
  overhead : p.framer.overhead.length < 8 ∧ (p.framer.state = .search → p.framer.overhead = []) ∧
    (p.framer.state = .verify → p.framer.overhead.length < 4)
  /-- Matches are counted in VERIFY alone, two at most (R4). -/
  verified : p.framer.verified ≤ 2 ∧ (p.framer.state ≠ .verify → p.framer.verified = 0)
  /-- Errored nibbles run in ALIGNED alone, three at most (R5). -/
  errored : p.framer.erroredRun ≤ 3 ∧ (p.aligned = false → p.framer.erroredRun = 0)
  /-- The errored-alignment counter is 16 bits wide (R7). -/
  counter : p.framer.erroredCount ≤ Config.counterMax

/-! ### Slip buffers (02) -/

/-- A slip buffer and the transmit frame of its port. -/
structure Port.SlipInv (p : Port) : Prop where
  /-- No more than two whole frames wait, and no more than one beside a frame being written, so that
  the fill stays within 0..72 (R31). -/
  waiting : p.slip.waiting.length ≤ 2
  writing : ∀ w, p.slip.writing = some w → p.slip.waiting.length ≤ 1 ∧ w.length ≤ 35
  /-- A slot in progress is one of a frame being written; slot 0 is whole with its overhead byte (R31). -/
  slot : p.slip.slot.length ≤ 8 ∧ (p.slip.writing = none → p.slip.slot = []) ∧
    (p.slip.slot.length = 8 → p.slip.writing = some [])
  /-- Frames are whole (R31). -/
  whole : (∀ f ∈ p.slip.waiting, f.length = 36) ∧ p.slip.read.length = 36
  /-- The write side stops outside ALIGNED (R35). -/
  stopped : p.aligned = false → p.slip.writing = none
  /-- The buffer of a disabled port is empty, its period slip count 0 (R35). -/
  disabled : p.config.enable = false → p.slip.waiting = [] ∧ p.slip.periodSlips = 0
  counts : p.slip.periodSlips ≤ Config.periodSlipMax ∧ p.slip.slips ≤ Config.counterMax
  /-- A transmit frame has 35 payload slots (R1, R15). -/
  sent : ∀ b, p.txPayload = some b → b.length = 35
  /-- The bits sent last are a frame period's (R1, R27). -/
  last : p.txLast.length = Config.frameBits
  /-- The frame being received began in the bits still held (R103). -/
  began : ∀ k, p.rxFirst = some k → k < 2 * Config.frameBits

/-! ### Maintenance units (08) -/

/-- The runs, the far alarm, the loop and the burst of a port. -/
structure Port.MaintInv (p : Port) : Prop where
  run : p.maint.runLength ≤ Config.codeRun ∧ (p.maint.runSym = none ↔ p.maint.runLength = 0)
  /-- A run is recognized exactly when it is a code's and 64 frames long (R147). -/
  recognized : p.maint.recognized = true ↔
    p.maint.runLength = Config.codeRun ∧ (p.maint.runSym = some .loopUp ∨ p.maint.runSym = some .loopDown)
  /-- The runs and FAR_ALARM stand in ALIGNED alone (R149). -/
  zeroed : p.aligned = false →
    p.maint.runSym = none ∧ p.maint.absence = 0 ∧ p.maint.farAlarm = false
  absence : p.maint.absence < Config.farRun ∧ (p.maint.farAlarm = false → p.maint.absence = 0)
  /-- A loop timer runs in RETURN_CODE alone (R151, R156). -/
  timer : p.maint.loopTimer ≤ 20400000 ∧ (p.maint.loop ≠ .returnCode → p.maint.loopTimer = 0)
  mark : p.maint.loopMark ≠ .fresh ∧ (p.maint.loopMark = .due → p.maint.loopTimer = 1)
  /-- A disabled port has no loop and no burst (R160). -/
  disabled : p.config.enable = false → p.maint.loop = .off ∧ p.maint.burstLeft = 0
  burst : p.maint.burstLeft ≤ 65535

/-- Every port of a state is sane. -/
def State.PortsInv (s : State) : Prop :=
  ∀ n : PortNo, s.ports[n].LineInv ∧ s.ports[n].SlipInv ∧ s.ports[n].MaintInv

/-! ### The reference monitor (02, 2.1) -/

structure State.RefInv (s : State) : Prop where
  /-- In REF_OK the good-mark run and the last mark stand at 0 and none (R27). -/
  ok : s.ref.state = .refOk → s.ref.good = 0 ∧ s.ref.lastMark = none
  /-- In FREEWHEEL no window is missed and starts are measured from the last one (R25, R26). -/
  freewheel : s.ref.state = .freewheel →
    s.ref.missed = 0 ∧ s.ref.windowOpen = false ∧ s.ref.point = s.ref.lastStart
  missed : s.ref.missed < Config.missedMarks
  good : s.ref.good < Config.goodMarks ∧ (s.ref.good = 0 ↔ s.ref.lastMark = none)
  /-- A port that is followed, or whose marks are being counted, is ALIGNED (R23, R25, R26). -/
  followed : ∀ n, s.ref.selection = .port n → s.ref.state = .refOk ∨ 0 < s.ref.good →
    s.ports[n].aligned = true

/-! ### Connection table (03, 06) -/

/-- Two ends as a frame carries them cover no common slot of one port. -/
abbrev RawEnd.Apart (width : Nat) (a b : RawEnd) : Prop :=
  a.port ≠ b.port ∨ a.first.toNat + width ≤ b.first.toNat ∨ b.first.toNat + width ≤ a.first.toNat

/-- The timer of a direction's health (R113). -/
def Health.Sane (h : Health) : Prop :=
  match h.state with
  | .clear | .failed => h.timer = 0
  | .pendingFail => 1 ≤ h.timer ∧ h.timer ≤ 255
  | .pendingClear => 1 ≤ h.timer ∧ h.timer ≤ 2550

/-- An end lies in the payload slots (R40). -/
abbrev End.InRange (width : Nat) (e : End) : Prop := 1 ≤ e.first ∧ e.first + width ≤ 36

/-- The health machine's table (6.2, R109 to R112): where a direction goes at an expiry, with a defect
present or absent, by the record's hold-off and clear time. -/
def Health.MovesTo (holdOff clearTime : Byte) (defect : Bool) (h h' : Health) : Prop :=
  match h.state, defect with
  | .clear, true => if holdOff = 0 then h' = ⟨.failed, 0⟩ else h' = ⟨.pendingFail, holdOff.toNat⟩
  | .clear, false => h' = h
  | .pendingFail, true => if h.timer ≤ 1 then h' = ⟨.failed, 0⟩ else h' = ⟨.pendingFail, h.timer - 1⟩
  | .pendingFail, false => h' = ⟨.clear, 0⟩
  | .failed, true => h' = h
  | .failed, false => if clearTime = 0 then h' = ⟨.clear, 0⟩ else h' = ⟨.pendingClear, 10 * clearTime.toNat⟩
  | .pendingClear, true => h' = ⟨.failed, 0⟩
  | .pendingClear, false => if h.timer ≤ 1 then h' = ⟨.clear, 0⟩ else h' = ⟨.pendingClear, h.timer - 1⟩

/-- A record's invariant: its ends and triples, its standby and context, and its health. -/
structure Record.Inv (r : Record) : Prop where
  width : 1 ≤ r.width ∧ r.width ≤ 35
  ends : r.source.InRange r.width ∧ (∀ d ∈ r.dests, d.dest.InRange r.width) ∧
    (∀ e, r.standby = some e → e.InRange r.width) ∧ (∀ e, r.leaving = some e → e.InRange r.width)
  /-- No triple is held twice (R42). -/
  distinct : (r.triples.map Triple.key).Nodup
  /-- One destination, always IN, of a SIMPLEX or DUPLEX record (R39, R43). -/
  single : r.kind ≠ .branch → ∃ e, r.dests = [⟨e, .inService⟩]
  /-- At most four entries of a BRANCH record, at least two of them not LEAVING (R39, R43). -/
  branch : r.kind = .branch → r.dests.length ≤ 4 ∧ 2 ≤ r.staying.length
  healthBA : r.healthBA.isSome = decide (r.kind = .duplex)
  /-- Standby, health S and context come and go together (R44, R45). -/
  standby : r.healthS.isSome = r.standby.isSome ∧ r.context.isSome = r.standby.isSome
  duplex : r.kind = .duplex → r.standby = none ∧ r.leaving = none
  oneStandby : r.standby.isSome = true → r.leaving = none
  /-- Every change in flight is in the pending-change set (R93, R99). -/
  inFlight : r.state = .staged ∨ r.state = .retiring ∨ r.leaving.isSome = true ∨
    (∃ d ∈ r.dests, d.state ≠ .inService) → r.pending = true
  timers : r.healthAB.Sane ∧ (∀ h, r.healthBA = some h → h.Sane) ∧ (∀ h, r.healthS = some h → h.Sane)
  /-- A STAGED record's health is CLEAR (R50, R118). -/
  staged : r.state = .staged → r.healthAB = Health.good ∧
    (∀ h, r.healthBA = some h → h = Health.good) ∧ (∀ h, r.healthS = some h → h = Health.good)
  handOver : r.handOverDue = true → r.context.isSome = true

/-- The four tables are in canonical form, with their keys in range. -/
structure State.TablesWf (s : State) : Prop where
  records : s.records.wf
  slotMap : s.slotMap.wf
  selections : s.selections.wf
  contexts : s.contexts.wf
  /-- IDLE is the absent entry. -/
  noIdle : ∀ e ∈ s.selections, e.2 ≠ .idle
  ids : ∀ e ∈ s.records, e.1 < Config.records
  contextNumbers : ∀ e ∈ s.contexts, e.1 < Config.contexts

/-- The records and their slot map (R58, R92). -/
structure State.MapInv (s : State) : Prop where
  tables : s.TablesWf
  records : ∀ e ∈ s.records, e.2.Inv
  /-- Every triple a record holds names it (R58). -/
  held : ∀ e ∈ s.records, ∀ t ∈ e.2.triples, s.slotMap.get t.key = some e.1
  /-- Every entry names a record that holds the triple (R58). -/
  named : ∀ m ∈ s.slotMap, ∃ e ∈ s.records, e.1 = m.2 ∧ m.1 ∈ e.2.triples.map Triple.key
  /-- A SOURCE or COND selection stands on a tx slot that an installed record holds (R52, R92). -/
  selected : ∀ e ∈ s.selections, ∃ id r, s.slotMap.get (16 * Config.frameSlots + e.1) = some id ∧
    s.records.get id = some r ∧ r.state ≠ .staged

/-! ### Protection contexts (07) -/

/-- The selection that a request state makes (R130). -/
structure Context.Inv (c : Context) : Prop where
  working : c.request = .holdWorking ∨ c.request = .failStandby ∨ c.request = .manualWorking →
    c.selected = .working
  standby : c.request = .forceStandby ∨ c.request = .failWorking ∨ c.request = .manualStandby ∨
    c.request = .restoreWait → c.selected = .standby
  /-- A REVERTIVE context in NONE rests on WORKING (R130). -/
  rests : c.request = .none → c.mode = .revertive → c.selected = .working
  /-- A NON_REVERTIVE context never enters RESTORE_WAIT (R138). -/
  waits : c.request = .restoreWait → c.mode = .revertive ∧ 1 ≤ c.wtrLeft
  /-- The wait-to-restore remaining is 0 in every other state (R139). -/
  idle : c.request ≠ .restoreWait → c.wtrLeft = 0
  time : 1 ≤ c.wtrTime.toNat ∧ c.wtrLeft ≤ 20400000
  count : c.switches ≤ Config.counterMax

def State.ContextsSane (s : State) : Prop := ∀ e ∈ s.contexts, e.2.Inv

/-- A bound context and its record name each other (R44, R125). -/
structure State.BindInv (s : State) : Prop where
  tables : s.TablesWf
  bound : ∀ e ∈ s.records, ∀ k, e.2.context = some k →
    ∃ c, s.contexts.get k = some c ∧ c.record = e.1
  binds : ∀ e ∈ s.contexts, ∃ r, s.records.get e.2.record = some r ∧ r.context = some e.1

/-! ### The attention list (09) -/

/-- The kinds a summary may hold for a subject (R162). -/
def Entry.Sane (e : Entry) : Prop :=
  match e.subject with
  | .record id => id < Config.records ∧
      (e.summary.health || e.summary.select || e.summary.state) = true ∧
      (e.summary.portDefect || e.summary.farAlarm || e.summary.code || e.summary.loop) = false
  | .port _ =>
      (e.summary.portDefect || e.summary.farAlarm || e.summary.code || e.summary.loop) = true ∧
      (e.summary.health || e.summary.select || e.summary.state) = false

/-- The list never holds a subject twice, and every entry has kinds of its subject (R162). -/
structure State.ListInv (s : State) : Prop where
  tables : s.TablesWf
  once : (s.attention.map Entry.subject).Nodup
  kinds : ∀ e ∈ s.attention, e.Sane

/-! ### Management ports and executor (10) -/

structure MPort.Inv (x : MPort) : Prop where
  /-- A response stands in ANSWERED alone, 4 to 48 bytes long (R176, R181). -/
  response : (x.txn = .answered → 4 ≤ x.response.length ∧ x.response.length ≤ 48) ∧
    (x.txn ≠ .answered → x.response = [])
  /-- A request is loading or waiting, 32 bytes at most, and a waiting one is complete (R173, R174). -/
  request : x.request.length ≤ 32 ∧ (x.txn = .waiting → frameComplete x.request = true) ∧
    (x.txn ≠ .loading → x.txn ≠ .waiting → x.request = [])
  /-- A port is LOADING exactly while its bus is busy with the write that was taken (R170). -/
  loading : x.txn = .loading ↔ ∃ shift, x.bus = .writing true shift
  reading : ∀ k, x.bus = .reading true k → x.txn = .answered
  /-- The bits of an unfinished byte are fewer than eight (R171). -/
  shift : ∀ taken shift, x.bus = .writing taken shift → shift.length < 8
  /-- A read has begun one byte for every eight bits sent or the first of them (R176, R177). -/
  sent : ∀ k, (∃ live, x.bus = .reading live k) ∨ x.bus = .status k → x.sent.length = (k + 7) / 8

structure State.BusInv (s : State) : Prop where
  portM : s.portM.Inv
  portS : s.portS.Inv
  /-- A port is EXECUTING exactly while the executor has its request (R170, R178, R179). -/
  executing : ∀ p, (s.mport p).txn = .executing ↔ ∃ x, s.executor = some x ∧ x.port = p
  /-- A request is there to be carried out, or its answer is there, 44 data bytes at most (R181). -/
  execution : ∀ x, s.executor = some x →
    (x.answer = none → x.request.isSome = true) ∧ ∀ a, x.answer = some a → a.data.length ≤ 44
  /-- While RST is low both ports stand at power-on and port S acknowledges nothing (R184, R187). -/
  held : s.rst = true → s.portM = MPort.powerOn ∧ s.portS = MPort.powerOn ∧ s.acks = 0 ∧
    s.lastOp = .readStatus ∧ s.executor = none

end Sys2Proof.Machine
end

