-- ==== Sys2Proof/Certificates/Slice0/Obligations.lean ====
section
/-! DEFINITION. The statements for the provers. Each `def Obligations.<Name> : Prop` says in its
docstring which rules it rests on; OBLIGATIONS.json lists them. -/

open Sys2Proof Sys2Proof.Machine

/-! ### The queue and the executor -/

/-- A step is the command at the front of the queue, carried out with the rest of the queue; on an empty
queue it changes nothing (DESIGN CHOICE, log 2). -/
def Obligations.StepRunsFrontCommand : Prop :=
  (∀ (c : Instr) (rest : List Instr) (s : State), s.pending = c :: rest →
    step s = exec c { s with pending := rest }) ∧
  ∀ s : State, s.pending = [] → step s = .next s

/-- Every command takes a next state, in every state: the spec names nothing that stops the part, and that a
command out of its place goes on with nothing changed is the model's choice (log 1). It leaves the queue
alone: the queue is the model's own (logs 2 and 19). -/
def Obligations.EveryCommandTakesANextState : Prop :=
  ∀ (c : Instr) (s : State), ∃ t, exec c s = .next t ∧ t.pending = s.pending

/-- Commands that are no event of the part where they come change nothing (DESIGN CHOICE, log 1): a
request that the executor has not been handed or has carried out already, a check outside VERIFY, a
frame outside ALIGNED, an edge on SFR while a port is selected (R23) or RST is low (R30), an expiry
that is not there (log 8). -/
def Obligations.CommandOutOfPlaceChangesNothing : Prop :=
  ∀ s : State,
    (∀ c, (encodeParams c).isSome = true → (∀ x, ¬ s.handed c x) → exec c s = .next s) ∧
    (∀ n nibble symbol, s.ports[n].framer.state ≠ .verify →
      exec (.verifyCheck n nibble symbol) s = .next s) ∧
    (∀ n moment nibble symbol, s.ports[n].aligned = false →
      exec (.alignedFrameReceived n moment nibble symbol) s = .next s) ∧
    (∀ m, s.rst = true ∨ s.ref.selection ≠ .external → exec (.sfrMark m) s = .next s) ∧
    (∀ turn, s.slipPeriod.ready 8000 turn = false → exec (.slipPeriodEnd turn) s = .next s) ∧
    (∀ turn, s.interval.ready 80 turn = false → exec (.supervisionIntervalExpiry turn) s = .next s)

/-- A request answered other than OK has changed nothing but the executor's answer (R63, R182). -/
def Obligations.RefusedRequestChangesNothing : Prop :=
  ∀ (c : Instr) (s t : State) (x : Execution) (a : Answer), s.handed c x → exec c s = .next t →
    t.executor = some { x with answer := some a } → a.status ≠ .ok → t = s.answering x a

/-! ### RST -/

/-- RST taken low puts every block at its power-on value (R22, R30, R37, R62, R104, R124, R145, R161, R167,
R168, R184, R187); LOS_n levels, straps and the queue of commands stand (the model's choice, log 5). The
values that the spec does not give are left open. RST released latches the straps into the slave address
(R172), a bus transaction that is running there is not taken (R184), and nothing else changes. -/
def Obligations.RstAssertPutsPowerOnValues : Prop :=
  (∀ (r : Release) (s t : State),
    t = { s with rst := false, straps := r.straps,
                 portM := { s.portM with bus := if r.busM then .missed else .free },
                 portS := { s.portS with bus := if r.busS then .missed else .free } } →
    (s.rst = true → exec (.rstRelease r) s = .next t ∧ t.address = 0x5C + r.straps.setWidth 7) ∧
    (s.rst = false → exec (.rstRelease r) s = .next s)) ∧
  ∀ s : State, ∃ t, exec .rstAssert s = .next t ∧ t.rst = true ∧ t.straps = s.straps ∧
    t.pending = s.pending ∧
    (∀ n : PortNo, t.ports[n].los = s.ports[n].los ∧
      t.ports[n].config = ⟨false, 0xD5, false, true, 8, 0⟩ ∧
      t.ports[n].framer.state = .search ∧ t.ports[n].framer.erroredRun = 0 ∧
      t.ports[n].framer.allOnesRun = 0 ∧ t.ports[n].framer.erroredCount = 0 ∧
      t.ports[n].defects = ⟨true, false, false, false, false⟩ ∧ t.ports[n].txPayload = none ∧
      t.ports[n].slip = ⟨[], none, [], List.replicate 36 0xFF, 0, 0⟩ ∧
      t.ports[n].maint.loop = .off ∧ t.ports[n].maint.loopTimer = 0 ∧ t.ports[n].maint.burstLeft = 0 ∧
      t.ports[n].maint.runSym = none ∧ t.ports[n].maint.runLength = 0 ∧
      t.ports[n].maint.recognized = false ∧ t.ports[n].maint.absence = 0 ∧
      t.ports[n].maint.farAlarm = false ∧ t.ports[n].maint.lastCode = none) ∧
    t.ref.selection = .external ∧ t.ref.state = .freewheel ∧ t.ref.missed = 0 ∧ t.ref.good = 0 ∧
    t.ref.lastMark = none ∧ t.interval.count = 0 ∧ t.slipPeriod.count = 0 ∧
    (∀ id, t.records.get id = none) ∧ (∀ y : Triple, t.slotMap.get y.key = none) ∧
    (∀ n slot, t.selection n slot = .idle) ∧ (∀ k, t.contexts.get k = none) ∧ t.pendingSet = [] ∧
    t.attention = [] ∧ t.enableM = false ∧ t.enableS = false ∧
    (∀ p, (t.mport p).txn = .idle ∧ (t.mport p).request = [] ∧ (t.mport p).response = [] ∧
      (t.mport p).refused = false ∧ (t.mport p).bus = .free) ∧ t.acks = 0 ∧
    t.lastOp = .readStatus ∧ t.executor = none ∧ t.lastServed = .s

/-! ### The receive framer -/

/-- In SEARCH that is not forced the bits examined last, three at most, and the bits received after them make
the windows, in order of reception: the first that is binary 1011 is a candidate, its first bit's place the
candidate position, and the framer is in VERIFY. With no match the search goes on after these bits, and the
latest three of them begin its next window. In any other state, or forced, nothing is found (R3, R8). The bits
received are the line's, or in an INWARD loop the port's own, the latest sent from the place where the search
stands (R103, R153; how places are counted is log 10), and a search that goes on over the change of stream
has windows of both. A check in VERIFY is made with the fourth bit of the nibble, and fewer bits are kept for
it: one that misses returns to SEARCH, its next window the one that begins one bit after the candidate
position, and the first two matches are counted (R4). -/
def Obligations.CandidateIsVerified : Prop :=
  (∀ (s : State) (n : PortNo) (nibble symbol seen : List Bool),
    seen = s.ports[n].seen (nibble ++ symbol) → s.ports[n].framer.state = .verify →
    (seen.length < 4 → exec (.verifyCheck n nibble symbol) s = .next
      { s with ports := s.ports.set n { s.ports[n] with framer :=
        { s.ports[n].framer with overhead := seen } } }) ∧
    (4 ≤ seen.length → seen.take 4 ≠ [true, false, true, true] →
      exec (.verifyCheck n nibble symbol) s = .next
        { s with ports := s.ports.set n { s.ports[n] with framer :=
          { s.ports[n].framer with state := .search, verified := 0, erroredRun := 0, overhead := [],
                                   next := some (s.ports[n].framer.place + 4),
                                   recent := (seen.drop 1).take 3 } } }) ∧
    (seen.take 4 = [true, false, true, true] → s.ports[n].framer.verified < 2 →
      exec (.verifyCheck n nibble symbol) s = .next
        { s with ports := s.ports.set n { s.ports[n] with framer :=
          { s.ports[n].framer with verified := s.ports[n].framer.verified + 1, overhead := [] } } })) ∧
  ∀ (s : State) (n : PortNo) (start first : Place) (offset : Nat) (bits taken window : List Bool),
    first = s.ports[n].framer.next.getD start → offset = (first - s.ports[n].txPlace).val →
    (s.ports[n].maint.loop ≠ .inwardHost → taken = bits) →
    (s.ports[n].maint.loop = .inwardHost → taken = ((s.ports[n].txLast ++ s.ports[n].txBits).drop
      (if offset + bits.length ≤ 288 then 288 + offset else offset)).take bits.length) →
    window = s.ports[n].framer.recent ++ taken →
    (s.ports[n].framer.state = .search → s.ports[n].defects.off = false →
      s.ports[n].defects.sigLost = false →
      (∀ k, (window.drop k).take 4 = [true, false, true, true] →
        (∀ j < k, (window.drop j).take 4 ≠ [true, false, true, true]) →
        exec (.candidateFound n ⟨start, bits⟩) s = .next
          { s with ports := s.ports.set n { s.ports[n] with framer :=
            { s.ports[n].framer with
              state := .verify, verified := 0, next := none, recent := [],
              place := first - Fin.ofNat 288 s.ports[n].framer.recent.length + Fin.ofNat 288 k } } }) ∧
      ((∀ k, (window.drop k).take 4 ≠ [true, false, true, true]) →
        exec (.candidateFound n ⟨start, bits⟩) s = .next
          { s with ports := s.ports.set n { s.ports[n] with framer :=
            { s.ports[n].framer with
              next := some (first + Fin.ofNat 288 taken.length),
              recent := window.drop (window.length - 3) } } })) ∧
    (s.ports[n].framer.state ≠ .search ∨ s.ports[n].defects.off = true ∨
      s.ports[n].defects.sigLost = true → exec (.candidateFound n ⟨start, bits⟩) s = .next s)

/-- The third match enters ALIGNED: UNFRAMED and AIS_IN are removed, the errored run is 0, the slip
buffer is recentred with its read frame and counts kept, and the frame is the next one written (R4,
R6, R31, R34), its overhead byte as slot 0. With the byte's eighth bit its symbol is the first one counted: a
run of one frame, with no code recognized and no far alarm (R6, R146). Where the frame lies in the port's own
stream is marked for an INWARD loop (R103, log 10).
Configuration, LOS_n, transmit frame, loop and burst of the port, every other port and
every other block but the attention list stand. -/
def Obligations.ThirdMatchEntersAligned : Prop :=
  ∀ (s : State) (n : PortNo) (nibble symbol seen : List Bool) (offset : Nat),
    seen = s.ports[n].seen (nibble ++ symbol) → s.ports[n].framer.state = .verify →
    seen.take 4 = [true, false, true, true] → 2 ≤ s.ports[n].framer.verified →
    offset = (s.ports[n].framer.place - s.ports[n].txPlace).val →
    ∃ t, exec (.verifyCheck n nibble symbol) s = .next t ∧
      t.ports[n].framer = { s.ports[n].framer with
        state := .aligned, verified := 0, erroredRun := 0, allOnesRun := 0,
        overhead := if seen.length < 8 then seen else [] } ∧
      t.ports[n].defects = { s.ports[n].defects with unframed := false, aisIn := false } ∧
      t.ports[n].slip = { s.ports[n].slip with
        waiting := [List.replicate 36 0xFF], writing := some [], slot := seen } ∧
      (seen.length < 8 → t.ports[n].maint = s.ports[n].maint) ∧
      (∀ y : Nibble, seen.length = 8 → (∀ i < 4, seen[4 + i]? = some (y.getLsbD (3 - i))) →
        s.ports[n].MaintInv → t.ports[n].maint = { s.ports[n].maint with
          runSym := some (symOf y), runLength := 1, recognized := false }) ∧
      t.ports[n] = { s.ports[n] with
        framer := t.ports[n].framer, defects := t.ports[n].defects, slip := t.ports[n].slip,
        maint := t.ports[n].maint,
        rxFirst := some (if offset + seen.length ≤ 288 then 288 + offset else offset) } ∧
      (∀ m : PortNo, m ≠ n → t.ports[m] = s.ports[m]) ∧
      t = { s with ports := t.ports, attention := t.attention }

/-- A transmit frame is sent as 288 bits, slot 0 first and each slot with its most significant bit first
(R1). The bits received of an overhead byte in progress go on with the line's bits, or in an INWARD loop with
the port's own, the latest sent from the place where they stand, no more than the byte still has to come; so a
byte in progress when the stream changes has bits of both (R2, R103, R153). At its transmit frame's place a
framer in an INWARD loop sees the port's own overhead, binary 1011 and the symbol chosen for the frame (R16,
R103). How places are counted is the model's choice (log 10). -/
def Obligations.FedBackFrameIsSeen : Prop :=
  (∀ (p : Port) (b : List Byte) (y : Byte) (k i : Nat), p.txPayload = some b → i < 8 →
    (((0xB : Nibble) ++ p.txSymbol) :: b)[k]? = some y →
    p.txBits[8 * k + i]? = some (y.getLsbD (7 - i))) ∧
  (∀ p : Port, p.txPayload = none → p.txBits = List.replicate 288 true) ∧
  ∀ (p : Port) (bits wanted : List Bool), wanted = bits.take (8 - p.framer.overhead.length) →
    (p.maint.loop ≠ .inwardHost → p.seen bits = p.framer.overhead ++ wanted) ∧
    (∀ offset : Nat, p.maint.loop = .inwardHost →
      offset = (p.framer.place + Fin.ofNat 288 p.framer.overhead.length - p.txPlace).val →
      p.seen bits = p.framer.overhead ++ ((p.txLast ++ p.txBits).drop
        (if offset + wanted.length ≤ 288 then 288 + offset else offset)).take wanted.length) ∧
    (∀ b, p.maint.loop = .inwardHost → p.framer.place = p.txPlace → p.framer.overhead = [] →
      p.txLast.length = 288 → p.txPayload = some b → 8 ≤ bits.length →
      p.seen bits = [true, false, true, true, p.txSymbol.getLsbD 3, p.txSymbol.getLsbD 2,
        p.txSymbol.getLsbD 1, p.txSymbol.getLsbD 0])

/-- The nibble of a frame received in ALIGNED, on a port that is not the selected reference, is examined with
its fourth bit; fewer bits are kept for it, and those after it are kept for the symbol. A correct one ends the
errored run; an errored one is counted, the fourth in a row too, and that one takes the
framer to SEARCH, its next window the one that begins one bit after the frame position, with UNFRAMED raised,
a new frame period begun, the slip buffer stopped and the runs and FAR_ALARM cleared (R5, R6, R7, R11, R12,
R35, R149). Where the frame is handed on, the defect set stands. -/
def Obligations.AlignedNibbleIsJudged : Prop :=
  ∀ (s : State) (n : PortNo) (moment : Nat) (nibble symbol seen rest : List Bool),
    seen = s.ports[n].seen (nibble ++ symbol) → s.ports[n].aligned = true →
    s.ref.selection ≠ .port n → rest = (if seen.length < 8 then seen else []) →
    ∃ t, exec (.alignedFrameReceived n moment nibble symbol) s = .next t ∧
      (4 ≤ s.ports[n].framer.overhead.length → t.ports[n].defects = s.ports[n].defects ∧
        t.ports[n].framer = { s.ports[n].framer with overhead := rest }) ∧
      (s.ports[n].framer.overhead.length < 4 → seen.length < 4 →
        t.ports[n] = { s.ports[n] with
          framer := { s.ports[n].framer with overhead := seen }, txPlace := t.ports[n].txPlace }) ∧
      (s.ports[n].framer.overhead.length < 4 → seen.take 4 = [true, false, true, true] →
        t.ports[n].defects = s.ports[n].defects ∧
        t.ports[n].framer = { s.ports[n].framer with erroredRun := 0, overhead := rest }) ∧
      (s.ports[n].framer.overhead.length < 4 → 4 ≤ seen.length →
        seen.take 4 ≠ [true, false, true, true] → s.ports[n].framer.erroredRun < 3 →
        t.ports[n].defects = s.ports[n].defects ∧
        t.ports[n].framer = { s.ports[n].framer with
          erroredRun := s.ports[n].framer.erroredRun + 1, overhead := rest,
          erroredCount := if s.ports[n].framer.erroredCount < 65535 then
            s.ports[n].framer.erroredCount + 1 else s.ports[n].framer.erroredCount }) ∧
      (s.ports[n].framer.overhead.length < 4 → 4 ≤ seen.length →
        seen.take 4 ≠ [true, false, true, true] → 3 ≤ s.ports[n].framer.erroredRun →
        t.ports[n].framer = { s.ports[n].framer with
          state := .search, verified := 0, erroredRun := 0, overhead := [],
          next := some (s.ports[n].framer.place + 4), recent := (seen.drop 1).take 3,
          period := ⟨some (s.ports[n].framer.place + 4), 0, true⟩,
          erroredCount := if s.ports[n].framer.erroredCount < 65535 then
            s.ports[n].framer.erroredCount + 1 else s.ports[n].framer.erroredCount } ∧
        t.ports[n].defects = { s.ports[n].defects with
          unframed := s.ports[n].defects.unframed || s.ports[n].config.enable } ∧
        t.ports[n].slip = { s.ports[n].slip with writing := none, slot := [] } ∧
        t.ports[n].rxFirst = s.ports[n].rxFirst ∧
        t.ports[n].maint = { s.ports[n].maint with runSym := none, runLength := 0, recognized := false,
                                                   absence := 0, farAlarm := false }) ∧
      t.ports[n].config = s.ports[n].config ∧ t.ports[n].los = s.ports[n].los ∧
      t.ports[n].txSymbol = s.ports[n].txSymbol ∧ t.ports[n].txPayload = s.ports[n].txPayload ∧
      t.ports[n].txLast = s.ports[n].txLast ∧
      (s.ports[n].maint.loop = .inwardHost ∨ s.ports[n].framer.overhead ≠ [] ∨ nibble ++ symbol = [] →
        t.ports[n].txPlace = s.ports[n].txPlace) ∧
      (∀ m : PortNo, m ≠ n → t.ports[m] = s.ports[m]) ∧
      t = { s with ports := t.ports, attention := t.attention }

/-- A frame handed on starts to be written with its nibble, its overhead byte as slot 0, or is dropped whole
and counted as a slip where two frames wait (R31, R33); with the overhead byte's eighth bit its symbol carries
on the run or starts it afresh and moves the far alarm (R146, R148).
The defect set and the burst stand, and unless the run is the 64th frame of a code not yet recognized, so do
the loop, its timer and the last recognized code. On the line the frame says where the system frame begins in
the counting of its places, and where it lies in the port's own stream is marked for an INWARD loop (both the
model's choice, log 10). -/
def Obligations.DeliveredFrameIsWrittenAndCounted : Prop :=
  ∀ (s : State) (n : PortNo) (moment : Nat) (nibble symbol seen : List Bool),
    seen = s.ports[n].seen (nibble ++ symbol) → s.ports[n].aligned = true →
    s.ref.selection ≠ .port n → 4 ≤ seen.length →
    (4 ≤ s.ports[n].framer.overhead.length ∨ seen.take 4 = [true, false, true, true] ∨
      s.ports[n].framer.erroredRun < 3) →
    ∃ t, exec (.alignedFrameReceived n moment nibble symbol) s = .next t ∧
      (s.ports[n].framer.overhead.length < 4 → s.ports[n].slip.waiting.length < 2 → t.ports[n].slip =
        { s.ports[n].slip with writing := some [], slot := seen }) ∧
      (s.ports[n].framer.overhead.length < 4 → 2 ≤ s.ports[n].slip.waiting.length → s.ports[n].SlipInv →
        t.ports[n].slip = { s.ports[n].slip with
          periodSlips := if s.ports[n].slip.periodSlips < 255 then s.ports[n].slip.periodSlips + 1
            else s.ports[n].slip.periodSlips,
          slips := if s.ports[n].slip.slips < 65535 then s.ports[n].slip.slips + 1
            else s.ports[n].slip.slips }) ∧
      (4 ≤ s.ports[n].framer.overhead.length → t.ports[n].slip = { s.ports[n].slip with
          slot := if s.ports[n].slip.writing = some [] then seen else s.ports[n].slip.slot } ∧
        t.ports[n].rxFirst = s.ports[n].rxFirst) ∧
      (seen.length < 8 → t.ports[n].maint = s.ports[n].maint) ∧
      (∀ (y : Nibble) (x : Sym), seen.length = 8 →
        (∀ i < 4, seen[4 + i]? = some (y.getLsbD (3 - i))) → x = symOf y →
        t.ports[n].maint.runSym = some x ∧
        t.ports[n].maint.runLength = (if s.ports[n].maint.runSym = some x then
            (if s.ports[n].maint.runLength < 64 then s.ports[n].maint.runLength + 1
              else s.ports[n].maint.runLength)
          else 1) ∧
        (s.ports[n].maint.farAlarm = false →
          t.ports[n].maint.farAlarm = decide (x = .farAlarm ∧ t.ports[n].maint.runLength = 16) ∧
          t.ports[n].maint.absence =
            if t.ports[n].maint.farAlarm then 0 else s.ports[n].maint.absence) ∧
        (s.ports[n].maint.farAlarm = true →
          t.ports[n].maint.farAlarm = decide (x = .farAlarm ∨ s.ports[n].maint.absence + 1 < 16) ∧
          t.ports[n].maint.absence = (if x = .farAlarm then 0
            else if s.ports[n].maint.absence + 1 < 16 then s.ports[n].maint.absence + 1 else 0)) ∧
        (t.ports[n].maint.runLength ≠ 64 ∨ x = .quiet ∨ x = .farAlarm ∨
            s.ports[n].maint.recognized = true →
          t.ports[n].maint = { s.ports[n].maint with
            runSym := t.ports[n].maint.runSym, runLength := t.ports[n].maint.runLength,
            recognized := s.ports[n].maint.recognized && decide (s.ports[n].maint.runSym = some x),
            absence := t.ports[n].maint.absence, farAlarm := t.ports[n].maint.farAlarm })) ∧
      (t.ports[n].maint.farAlarm ≠ s.ports[n].maint.farAlarm →
        ∃ e ∈ t.attention, e.subject = .port n ∧ e.summary.farAlarm = true) ∧
      t.ports[n].maint.burstCode = s.ports[n].maint.burstCode ∧
      t.ports[n].maint.burstLeft = s.ports[n].maint.burstLeft ∧
      t.ports[n].maint.burstRunning = s.ports[n].maint.burstRunning ∧
      (∀ offset : Nat, s.ports[n].framer.overhead.length < 4 →
        offset = (s.ports[n].framer.place - t.ports[n].txPlace).val →
        t.ports[n].rxFirst = some (if offset + seen.length ≤ 288 then 288 + offset else offset)) ∧
      t.ports[n].txPlace = (if s.ports[n].maint.loop = .inwardHost ∨ s.ports[n].framer.overhead ≠ [] ∨
          nibble ++ symbol = [] then s.ports[n].txPlace
        else s.ports[n].framer.place - Fin.ofNat 288
          (((((moment : Int) - s.ref.lastStart) % 125000).toNat * 288 + 62500) / 125000)) ∧
      t.ports[n] = { s.ports[n] with
        framer := t.ports[n].framer, slip := t.ports[n].slip, maint := t.ports[n].maint,
        txPlace := t.ports[n].txPlace, rxFirst := t.ports[n].rxFirst }

/-- The 64th frame of a LOOP_UP run is recognized and posted with CODE; with code response 1 in OFF it
enters RETURN_CODE, its timer started, posted with LOOP; otherwise the loop stands (R147, R154, R156). -/
def Obligations.LoopUpIsRecognized : Prop :=
  ∀ (s : State) (n : PortNo) (moment : Nat) (nibble symbol seen : List Bool),
    seen = s.ports[n].seen (nibble ++ symbol) → s.ports[n].aligned = true →
    s.ref.selection ≠ .port n →
    (4 ≤ s.ports[n].framer.overhead.length ∨ seen.take 4 = [true, false, true, true] ∨
      s.ports[n].framer.erroredRun < 3) →
    seen.drop 4 = [false, true, true, false] → s.ports[n].maint.runSym = some .loopUp →
    s.ports[n].maint.runLength = 63 → s.ports[n].maint.recognized = false →
    ∃ t, exec (.alignedFrameReceived n moment nibble symbol) s = .next t ∧
      t.ports[n].maint.recognized = true ∧ t.ports[n].maint.lastCode = some .loopUp ∧
      (∃ e ∈ t.attention, e.subject = .port n ∧ e.summary.code = true) ∧
      (s.ports[n].config.codeResponse = true → s.ports[n].maint.loop = .off →
        t.ports[n].maint.loop = .returnCode ∧
        t.ports[n].maint.loopTimer = s.ports[n].config.loopTimeout.toNat * 80000 ∧
        ∃ e ∈ t.attention, e.subject = .port n ∧ e.summary.loop = true) ∧
      (s.ports[n].config.codeResponse = false ∨ s.ports[n].maint.loop ≠ .off →
        t.ports[n].maint.loop = s.ports[n].maint.loop ∧
        t.ports[n].maint.loopTimer = s.ports[n].maint.loopTimer)

/-- The 64th frame of a LOOP_DOWN run is recognized and posted with CODE; in RETURN_CODE it sets the
loop OFF, its timer 0, and posts LOOP, whatever the code response; in every other loop state the loop
stands and no LOOP is posted (R147, R155). -/
def Obligations.LoopDownIsRecognized : Prop :=
  ∀ (s : State) (n : PortNo) (moment : Nat) (nibble symbol seen : List Bool),
    seen = s.ports[n].seen (nibble ++ symbol) → s.ports[n].aligned = true →
    s.ref.selection ≠ .port n →
    (4 ≤ s.ports[n].framer.overhead.length ∨ seen.take 4 = [true, false, true, true] ∨
      s.ports[n].framer.erroredRun < 3) →
    seen.drop 4 = [true, false, false, true] → s.ports[n].maint.runSym = some .loopDown →
    s.ports[n].maint.runLength = 63 → s.ports[n].maint.recognized = false →
    ∃ t, exec (.alignedFrameReceived n moment nibble symbol) s = .next t ∧
      t.ports[n].maint.recognized = true ∧ t.ports[n].maint.lastCode = some .loopDown ∧
      (∃ e ∈ t.attention, e.subject = .port n ∧ e.summary.code = true) ∧
      (s.ports[n].maint.loop = .returnCode → t.ports[n].maint.loop = .off ∧
        t.ports[n].maint.loopTimer = 0 ∧
        ∃ e ∈ t.attention, e.subject = .port n ∧ e.summary.loop = true) ∧
      (s.ports[n].maint.loop ≠ .returnCode → t.ports[n].maint.loop = s.ports[n].maint.loop ∧
        t.ports[n].maint.loopTimer = s.ports[n].maint.loopTimer ∧
        ∀ e ∈ t.attention, e.subject = .port n → e.summary.loop = true →
          ∃ e' ∈ s.attention, e'.subject = .port n ∧ e'.summary.loop = true)

/-! ### Port defects -/

/-- LOS_n asserted (R8, R10): on an enabled port outside INWARD_HOST SIG_LOST is raised and the framer
is in SEARCH, its search to begin with the next bit received, an ALIGNED one leaving ALIGNED with UNFRAMED
raised, the slip buffer stopped and a frame period to begin with the next bit (R11, R12, R35).
Deasserted: SIG_LOST is removed there and a change of the source defect is posted. On any other port the
level alone is taken. -/
def Obligations.SigLostFollowsLosPin : Prop :=
  ∀ (s : State) (n : PortNo),
    (s.ports[n].config.enable = true → s.ports[n].maint.loop ≠ .inwardHost →
      exec (.losDeasserted n) s = .next { s with
        ports := s.ports.set n { s.ports[n] with
          los := false, defects := { s.ports[n].defects with sigLost := false } },
        attention :=
          if s.ports[n].defects.source ≠ ({ s.ports[n].defects with sigLost := false } : Defects).source
          then postTo s.attention (.port n) .portDefect else s.attention }) ∧
    (s.ports[n].config.enable = false ∨ s.ports[n].maint.loop = .inwardHost →
      exec (.losDeasserted n) s =
        .next { s with ports := s.ports.set n { s.ports[n] with los := false } }) ∧
    (s.ports[n].config.enable = true → s.ports[n].maint.loop ≠ .inwardHost →
      ∃ t, exec (.losAsserted n) s = .next t ∧ t.ports[n].los = true ∧
        t.ports[n].defects = { s.ports[n].defects with
          sigLost := true,
          unframed := s.ports[n].defects.unframed || s.ports[n].aligned } ∧
        t.ports[n].framer = { s.ports[n].framer with
          state := .search, verified := 0, next := none, recent := [], overhead := [], erroredRun := 0,
          period := if s.ports[n].aligned then ⟨none, 0, true⟩ else s.ports[n].framer.period } ∧
        t.ports[n].slip = (if s.ports[n].aligned then { s.ports[n].slip with writing := none, slot := [] }
          else s.ports[n].slip) ∧
        t.ports[n].maint = (if s.ports[n].aligned then
          { s.ports[n].maint with runSym := none, runLength := 0, recognized := false, absence := 0,
                                  farAlarm := false } else s.ports[n].maint) ∧
        t.ports[n] = { s.ports[n] with
          los := true, defects := t.ports[n].defects, framer := t.ports[n].framer,
          slip := t.ports[n].slip, maint := t.ports[n].maint } ∧
        (∀ m : PortNo, m ≠ n → t.ports[m] = s.ports[m]) ∧
        (s.ports[n].aligned = false ∨ s.ref.selection ≠ .port n → t.ref = s.ref) ∧
        t = { s with ports := t.ports, ref := t.ref, attention := t.attention }) ∧
    (s.ports[n].config.enable = false ∨ s.ports[n].maint.loop = .inwardHost →
      exec (.losAsserted n) s =
        .next { s with ports := s.ports.set n { s.ports[n] with los := true } })

/-- All-ones periods (R11), on an enabled port outside ALIGNED alone: the bits received go on with the period
in progress, no more of them than it still has to come, and its 288th bit ends it, the next one beginning with
the next bit. A period without a zero adds to the run, and the third in a row raises AIS_IN; a period with a
zero sets the run to 0 and leaves AIS_IN. The bits are the line's, or in an INWARD loop the port's own, the
latest sent from the place where the period stands (R103, R153; how places are counted is log 10), so that a
period in progress at the change of stream has bits of both. -/
def Obligations.AllOnesPeriodsRaiseAis : Prop :=
  ∀ (s : State) (n : PortNo) (start first : Place) (offset : Nat) (bits wanted taken : List Bool)
    (ones : Bool) (next : Option Place),
    first = s.ports[n].framer.period.next.getD start → offset = (first - s.ports[n].txPlace).val →
    wanted = bits.take (288 - s.ports[n].framer.period.count) →
    (s.ports[n].maint.loop ≠ .inwardHost → taken = wanted) →
    (s.ports[n].maint.loop = .inwardHost → taken = ((s.ports[n].txLast ++ s.ports[n].txBits).drop
      (if offset + wanted.length ≤ 288 then 288 + offset else offset)).take wanted.length) →
    ones = (s.ports[n].framer.period.ones && decide (∀ b ∈ taken, b = true)) →
    next = some (first + Fin.ofNat 288 taken.length) →
    (s.ports[n].config.enable = true → s.ports[n].aligned = false →
      (s.ports[n].framer.period.count + taken.length < 288 →
        exec (.allOnesPeriod n ⟨start, bits⟩) s = .next { s with
          ports := s.ports.set n { s.ports[n] with framer := { s.ports[n].framer with
            period := ⟨next, s.ports[n].framer.period.count + taken.length, ones⟩ } } }) ∧
      (288 ≤ s.ports[n].framer.period.count + taken.length →
        ∃ t, exec (.allOnesPeriod n ⟨start, bits⟩) s = .next t ∧
          (ones = false →
            t.ports[n].framer = { s.ports[n].framer with period := ⟨next, 0, true⟩, allOnesRun := 0 } ∧
            t.ports[n].defects = s.ports[n].defects) ∧
          (ones = true →
            t.ports[n].framer = { s.ports[n].framer with
              period := ⟨next, 0, true⟩,
              allOnesRun := if s.ports[n].framer.allOnesRun < 3 then s.ports[n].framer.allOnesRun + 1
                else s.ports[n].framer.allOnesRun } ∧
            t.ports[n].defects = { s.ports[n].defects with
              aisIn := (s.ports[n].defects.aisIn || decide (2 ≤ s.ports[n].framer.allOnesRun)) }) ∧
          t = { s with ports := s.ports.set n { s.ports[n] with framer := t.ports[n].framer,
                                                                defects := t.ports[n].defects },
                       attention := t.attention })) ∧
    (s.ports[n].config.enable = false ∨ s.ports[n].aligned = true →
      exec (.allOnesPeriod n ⟨start, bits⟩) s = .next s)

/-- The source defect is the highest-ranked member of the set, NONE where it is empty. Whatever the command
but RST taken low, a change of a port's source defect is posted with PORT_DEFECT (R14), and outside
DEVICE_RESET a change of its loop state with LOOP (R150) and a change of FAR_ALARM with FAR_ALARM (R148,
R149, R160); and PORT_DEFECT is posted by no command that leaves the source defect as it was. A posting adds
its kind to its subject's entry in place, and makes a new entry at the tail with that one kind where there
is none (R163). So a command that removes no entry leaves every entry its place and its kinds, and the
entries it makes stand at the tail, record subjects ascending and port subjects ascending (R163; that one
evaluation keeps that order across two blocks is the model's choice, log 21). -/
def Obligations.PortChangesArePosted : Prop :=
  (∀ d : Defects,
    (d.source = .off ↔ d.off = true) ∧
    (d.source = .sigLost ↔ d.off = false ∧ d.sigLost = true) ∧
    (d.source = .aisIn ↔ d.off = false ∧ d.sigLost = false ∧ d.aisIn = true) ∧
    (d.source = .unframed ↔ d.off = false ∧ d.sigLost = false ∧ d.aisIn = false ∧ d.unframed = true) ∧
    (d.source = .slipExcess ↔ d.off = false ∧ d.sigLost = false ∧ d.aisIn = false ∧
      d.unframed = false ∧ d.slipExcess = true) ∧
    (d.source = .none ↔ d.off = false ∧ d.sigLost = false ∧ d.aisIn = false ∧ d.unframed = false ∧
      d.slipExcess = false)) ∧
  (∀ (c : Instr) (s t : State) (n : PortNo), c ≠ .rstAssert → exec c s = .next t →
    (t.ports[n].sourceDefect ≠ s.ports[n].sourceDefect →
      ∃ e ∈ t.attention, e.subject = .port n ∧ e.summary.portDefect = true) ∧
    (t.ports[n].sourceDefect = s.ports[n].sourceDefect →
      ∀ e ∈ t.attention, e.subject = .port n → e.summary.portDefect = true →
        ∃ e' ∈ s.attention, e'.subject = .port n ∧ e'.summary.portDefect = true) ∧
    (c ≠ .deviceReset → t.ports[n].maint.loop ≠ s.ports[n].maint.loop →
      ∃ e ∈ t.attention, e.subject = .port n ∧ e.summary.loop = true) ∧
    (c ≠ .deviceReset → t.ports[n].maint.farAlarm ≠ s.ports[n].maint.farAlarm →
      ∃ e ∈ t.attention, e.subject = .port n ∧ e.summary.farAlarm = true)) ∧
  (∀ (l : List Entry) (x : Subject) (k : Change),
    (∀ before e after, l = before ++ e :: after → e.subject = x → (∀ a ∈ before, a.subject ≠ x) →
      postTo l x k = before ++ ⟨x, e.summary.add k⟩ :: after) ∧
    ((∀ e ∈ l, e.subject ≠ x) → postTo l x k = l ++ [⟨x, Summary.empty.add k⟩])) ∧
  ∀ (c : Instr) (s t : State), s.TablesWf → exec c s = .next t → c ≠ .attention → (∀ q, c ≠ .connect q) →
    c ≠ .deviceReset → c ≠ .rstAssert →
    (∃ new : List Subject,
      t.attention.map Entry.subject = s.attention.map Entry.subject ++ new ∧
      new.Pairwise fun a b => (∀ i j, a = .record i → b = .record j → i < j) ∧
        ∀ n m : PortNo, a = .port n → b = .port m → n < m) ∧
    ∀ (i : Nat) (e : Entry), s.attention[i]? = some e → ∃ e', t.attention[i]? = some e' ∧
      (e.summary.health = true → e'.summary.health = true) ∧
      (e.summary.select = true → e'.summary.select = true) ∧
      (e.summary.state = true → e'.summary.state = true) ∧
      (e.summary.portDefect = true → e'.summary.portDefect = true) ∧
      (e.summary.farAlarm = true → e'.summary.farAlarm = true) ∧
      (e.summary.code = true → e'.summary.code = true) ∧
      (e.summary.loop = true → e'.summary.loop = true)

/-! ### Slip buffers -/

/-- One of the first 35 slots: its bits are kept until they are eight, and the byte they spell, most
significant first, is then written next. The last slot in the same way: with it the frame joins the waiting
frames as the newest and no frame is being written (R1, R31). The bits are the line's, or in an INWARD loop the
port's own at that place of the frame, no more than the slot still has to come, so that a slot in progress when
the stream changes has bits of both, and slot k of the transmit frame is written where the frame began with it
(R103, R153; how places are counted is log 10). The model's choice (log 1): nothing happens where no frame is
being written, where the other command is due, or where the own bits have not been sent. The fill is 36 for
every waiting frame and 1 for every slot written, 72 at most in a sane buffer (R31). -/
def Obligations.SlotsAreWrittenInOrder : Prop :=
  (∀ p : Port, p.SlipInv → p.slip.fill ≤ 72 ∧ p.slip.fill = 36 * p.slip.waiting.length +
    (match p.slip.writing with | none => 0 | some w => w.length)) ∧
  ∀ (s : State) (n : PortNo) (bits wanted : List Bool),
    wanted = bits.take (8 - s.ports[n].slip.slot.length) →
    (∀ (w : List Byte) (taken slot : List Bool), s.ports[n].slip.writing = some w →
      (s.ports[n].maint.loop ≠ .inwardHost → taken = wanted) →
      (s.ports[n].maint.loop = .inwardHost → taken =
        (match s.ports[n].rxFirst with
          | some k => ((s.ports[n].txLast ++ s.ports[n].txBits).drop
              (k + 8 * w.length + s.ports[n].slip.slot.length)).take wanted.length
          | none => [])) →
      slot = s.ports[n].slip.slot ++ taken →
      (taken.length = wanted.length → slot.length < 8 →
        (w.length < 35 → exec (.slipBufferSlotWritten n bits) s = .next { s with
          ports := s.ports.set n { s.ports[n] with slip := { s.ports[n].slip with slot := slot } } }) ∧
        (w.length = 35 → exec (.frameWriteComplete n bits) s = .next { s with
          ports := s.ports.set n { s.ports[n] with slip := { s.ports[n].slip with slot := slot } } })) ∧
      (∀ byte : Byte, taken.length = wanted.length → slot.length = 8 →
        (∀ i < 8, slot[i]? = some (byte.getLsbD (7 - i))) →
        (w.length < 35 → exec (.slipBufferSlotWritten n bits) s = .next { s with
          ports := s.ports.set n { s.ports[n] with slip := { s.ports[n].slip with
            writing := some (w ++ [byte]), slot := [] } } }) ∧
        (w.length = 35 → exec (.frameWriteComplete n bits) s = .next { s with
          ports := s.ports.set n { s.ports[n] with slip := { s.ports[n].slip with
            waiting := s.ports[n].slip.waiting ++ [w ++ [byte]], writing := none, slot := [] } } })) ∧
      (taken.length < wanted.length → exec (.slipBufferSlotWritten n bits) s = .next s ∧
        exec (.frameWriteComplete n bits) s = .next s)) ∧
    (∀ w b, s.ports[n].slip.writing = some w → s.ports[n].maint.loop = .inwardHost →
      s.ports[n].rxFirst = some 288 → s.ports[n].txLast.length = 288 → s.ports[n].slip.slot = [] →
      s.ports[n].txPayload = some b → b.length = 35 → w.length < 35 → 8 ≤ bits.length →
      exec (.slipBufferSlotWritten n bits) s = .next { s with
        ports := s.ports.set n { s.ports[n] with slip := { s.ports[n].slip with
          writing := some (w ++ [(((0xB : Nibble) ++ s.ports[n].txSymbol) :: b).getD w.length 0]) } } }) ∧
    ((∀ w, s.ports[n].slip.writing = some w → 35 ≤ w.length) →
      exec (.slipBufferSlotWritten n bits) s = .next s) ∧
    ((∀ w, s.ports[n].slip.writing = some w → w.length ≠ 35) →
      exec (.frameWriteComplete n bits) s = .next s)

/-- At a system frame start the read side of an ALIGNED port takes the oldest waiting frame, or reads
its frame again and counts a slip; a port that is not ALIGNED reads ones, with no slip (R32, R35). -/
def Obligations.FrameStartGivesReadFrame : Prop :=
  ∀ (s : State) (n : PortNo),
    (∀ f rest, s.ports[n].aligned = true → s.ports[n].slip.waiting = f :: rest →
      s.frameStart.ports[n].slip = { s.ports[n].slip with waiting := rest, read := f }) ∧
    (s.ports[n].aligned = true → s.ports[n].slip.waiting = [] →
      s.frameStart.ports[n].slip = { s.ports[n].slip with
        periodSlips := if s.ports[n].slip.periodSlips < 255 then s.ports[n].slip.periodSlips + 1
          else s.ports[n].slip.periodSlips,
        slips := if s.ports[n].slip.slips < 65535 then s.ports[n].slip.slips + 1
          else s.ports[n].slip.slips }) ∧
    (s.ports[n].aligned = false →
      s.frameStart.ports[n].slip = { s.ports[n].slip with read := List.replicate 36 0xFF })

/-- The end of a slip period (R36): due after the frame start that ends it, or taken before that frame
start (R100; the two turns are log 8). An enabled port has SLIP_EXCESS exactly where its
period slips reach its threshold, a disabled one keeps its set, and every period slip count is 0. -/
def Obligations.SlipPeriodEndJudgesEveryPort : Prop :=
  (∀ (p : Period) (length : Nat),
    (p.ready length .after = true ↔ p.expiry = .due) ∧
    (p.ready length .before = true ↔ p.expiry = .idle ∧ p.count + 1 = length) ∧
    p.take .after = ⟨p.count, .idle⟩ ∧ p.take .before = ⟨p.count, .taken⟩) ∧
  ∀ (turn : Turn) (s : State), s.slipPeriod.ready 8000 turn = true →
    ∃ t, exec (.slipPeriodEnd turn) s = .next t ∧
      (∀ n : PortNo, t.ports[n] = { s.ports[n] with
        slip := { s.ports[n].slip with periodSlips := 0 },
        defects := if s.ports[n].config.enable then { s.ports[n].defects with
          slipExcess := decide (s.ports[n].config.threshold.toNat ≤ s.ports[n].slip.periodSlips) }
          else s.ports[n].defects }) ∧
      t = { s with ports := t.ports, attention := t.attention, slipPeriod := s.slipPeriod.take turn }

/-! ### System frame starts -/

/-- The oscillator makes a system frame start 125 µs after the reference point, which becomes the reference
point; in REF_OK the mark window stays open; while RST is low there is none (R24, R26, R30, R187). A mark of
the selected port's own stream that falls before that start, its overhead byte going on beyond it and no bit
of it given yet, is taken first, and where it makes a system frame start the oscillator makes none (R23, R24,
R103; log 10). A system frame start reaches the ports, tables, contexts, list and counts, and nothing of the reference, the
executor, the buses or the enables (R28). The two counts run to 80 and 8000 (R36, R106). That the expiry of
a count stays due until it is taken is the model's choice (log 8). -/
def Obligations.OscillatorMakesFrameStart : Prop :=
  ∀ s : State,
    (∀ late : Prop,
      (late ↔ ∃ n : PortNo, s.ref.selection = .port n ∧ s.ports[n].aligned = true ∧
        s.ports[n].framer.overhead = [] ∧ s.ports[n].maint.loop = .inwardHost ∧
        288 < (s.ports[n].framer.place - s.ports[n].txPlace).val + 8) →
      ∀ u : State,
        (¬ late → u = s) →
        (∀ n : PortNo, late → s.ref.selection = .port n → u = s.mark (s.ref.lastStart +
          ((s.ports[n].framer.place - s.ports[n].txPlace).val * 125000 + 287) / 288)) →
        (s.rst = false → u.ref.lastStart = s.ref.lastStart →
          exec .oscillatorFrameStart s = .next (State.frameStart { u with ref :=
            { u.ref with point := u.ref.point + 125000, lastStart := u.ref.point + 125000,
                         windowOpen := decide (u.ref.state = .refOk) } })) ∧
        (s.rst = false → u.ref.lastStart ≠ s.ref.lastStart → exec .oscillatorFrameStart s = .next u)) ∧
    (s.rst = true → exec .oscillatorFrameStart s = .next s) ∧
    s.frameStart.interval.count = (if s.interval.count + 1 < 80 then s.interval.count + 1 else 0) ∧
    s.frameStart.slipPeriod.count = (if s.slipPeriod.count + 1 < 8000 then s.slipPeriod.count + 1 else 0) ∧
    (80 ≤ s.interval.count + 1 → s.interval.expiry ≠ .taken → s.frameStart.interval.expiry = .due) ∧
    (8000 ≤ s.slipPeriod.count + 1 → s.slipPeriod.expiry ≠ .taken → s.frameStart.slipPeriod.expiry = .due) ∧
    (∀ n : PortNo, s.frameStart.ports[n].config = s.ports[n].config ∧
      s.frameStart.ports[n].framer = s.ports[n].framer ∧
      s.frameStart.ports[n].txPlace = s.ports[n].txPlace ∧
      s.frameStart.ports[n].defects = s.ports[n].defects ∧ s.frameStart.ports[n].los = s.ports[n].los) ∧
    s.frameStart = { s with
      ports := s.frameStart.ports, records := s.frameStart.records, slotMap := s.frameStart.slotMap,
      selections := s.frameStart.selections, contexts := s.frameStart.contexts,
      attention := s.frameStart.attention, interval := s.frameStart.interval,
      slipPeriod := s.frameStart.slipPeriod }

/-- The transmit frame begun at a system frame start: the burst's code, else FAR_ALARM for a lost,
all-ones or unframed receive signal, else NONE; each payload slot by its selection after the changes
made there, or the port's own read frame in a RETURN loop; a disabled port sends none (R15, R16, R18,
R90, R102, R159). The frame that ends is what was sent last (R15), and the frame being received lies by as many
bits further back in the port's own stream (log 10). -/
def Obligations.FrameStartBeginsTransmitFrame : Prop :=
  ∀ (s : State) (n : PortNo),
    (s.ports[n].config.enable = true →
      s.frameStart.ports[n].txSymbol =
        (if 0 < s.ports[n].maint.burstLeft then
          (match s.ports[n].maint.burstCode with | .loopUp => 0x6 | .loopDown => 0x9)
        else if s.ports[n].config.farSend = true ∧ (s.ports[n].sourceDefect = .sigLost ∨
            s.ports[n].sourceDefect = .aisIn ∨ s.ports[n].sourceDefect = .unframed) then 0xE
        else 0x0) ∧
      s.frameStart.ports[n].maint.burstLeft = s.ports[n].maint.burstLeft - 1 ∧
      ∃ b, s.frameStart.ports[n].txPayload = some b ∧ b.length = 35 ∧
        ∀ k < 35, b[k]? = some
          (if s.ports[n].maint.loop = .returnHost ∨ s.ports[n].maint.loop = .returnCode then
            s.frameStart.ports[n].slip.read.getD (k + 1) 0xFF
          else match s.frameStart.selection n (k + 1) with
            | .idle => s.ports[n].config.idleCode
            | .source m slot => s.frameStart.ports[m].slip.read.getD slot 0xFF
            | .cond byte => byte)) ∧
    (s.ports[n].config.enable = false → s.frameStart.ports[n].txPayload = none ∧
      s.frameStart.ports[n].maint.burstLeft = s.ports[n].maint.burstLeft) ∧
    (s.ports[n].SlipInv → s.frameStart.ports[n].txLast = s.ports[n].txBits) ∧
    s.frameStart.ports[n].rxFirst =
      s.ports[n].rxFirst.bind fun k => if 288 ≤ k then some (k - 288) else none

/-- At a system frame start a running loop timer counts down, and a wait-to-restore timer does where
the record is ACTIVE or HELD there and the timer was not set for that very frame start; the one that
ends the time leaves the expiry due (R139, R143, R144, R156, logs 8 and 9). -/
def Obligations.FrameStartCountsTimers : Prop :=
  ∀ s : State,
    (∀ n : PortNo,
      (s.ports[n].maint.loopTimer = 0 → s.frameStart.ports[n].maint.loopTimer = 0) ∧
      (s.ports[n].maint.loopTimer = 1 → s.frameStart.ports[n].maint.loopMark = .due) ∧
      (1 < s.ports[n].maint.loopTimer →
        s.frameStart.ports[n].maint.loopTimer = s.ports[n].maint.loopTimer - 1)) ∧
    (∀ k c, s.frameStart.contexts.get k = some c → ∃ c0, s.contexts.get k = some c0 ∧
      (s.frameStart.inService c.record = true → c0.request = .restoreWait → c0.wtrMark = .plain →
        1 < c0.wtrLeft → c = { c0 with wtrLeft := c0.wtrLeft - 1 }) ∧
      (s.frameStart.inService c.record = true → c0.request = .restoreWait → c0.wtrMark = .plain →
        c0.wtrLeft ≤ 1 → c = { c0 with wtrMark := .due }) ∧
      (s.frameStart.inService c.record = true → c0.request = .restoreWait → c0.wtrMark = .fresh →
        c = { c0 with wtrMark := .plain }) ∧
      (s.frameStart.inService c.record = false ∨ c0.request ≠ .restoreWait → c = c0))

/-- At a system frame start every record of the pending-change set is taken: afterwards none is
pending, none is STAGED or RETIRING, no entry is JOINING or LEAVING, and no leaving standby is held (R43,
R53, R94, R95, R99). A record taken that is not RETIRING becomes ACTIVE from STAGED and keeps its state
otherwise, its entries that are not LEAVING stay in their order, and every other field of it stands, its
revision, parameters and health among them (R43, R48, R53, R99); a record that is not pending stands whole,
no record comes about, and so does the selection of every transmit slot that no pending record holds (R92,
R95). -/
def Obligations.FrameStartCompletesChangesInFlight : Prop :=
  ∀ s : State, s.MapInv → s.frameStart.pendingSet = [] ∧
    (∀ id r, s.frameStart.records.get id = some r → r.pending = false ∧ r.leaving = none ∧
      (r.state = .active ∨ r.state = .held) ∧ ∀ d ∈ r.dests, d.state = .inService) ∧
    (∀ id r, s.records.get id = some r →
      (r.pending = false → s.frameStart.records.get id = some r) ∧
      (r.pending = true → r.state ≠ .retiring → s.frameStart.records.get id = some { r with
        state := if r.state = .staged then .active else r.state,
        dests := (r.dests.filter fun d => d.state ≠ .leaving).map fun d => ⟨d.dest, .inService⟩,
        leaving := none, pending := false })) ∧
    (∀ id, s.records.get id = none → s.frameStart.records.get id = none) ∧
    ∀ (n : PortNo) (slot : Nat), 1 ≤ slot → slot ≤ 35 →
      (∀ id r, s.slotMap.get (Triple.key ⟨n, slot, .tx⟩) = some id → s.records.get id = some r →
        r.pending = false) →
      s.frameStart.selection n slot = s.selection n slot

/-- A RETIRING record is freed at the system frame start: its id is FREE, no triple names it, its
context is unbound, its transmit slots are IDLE, and it is posted with STATE (R53, R60, R97, R126). -/
def Obligations.RetiringRecordIsFreedAtFrameStart : Prop :=
  ∀ (s : State) (id : Nat) (r : Record), s.MapInv → s.BindInv → s.records.get id = some r →
    r.state = .retiring →
    s.frameStart.records.get id = none ∧ (∀ k, s.frameStart.slotMap.get k ≠ some id) ∧
    (∀ k, r.context = some k → s.frameStart.contexts.get k = none) ∧
    (∀ d ∈ r.dests, ∀ j < r.width, s.frameStart.selection d.dest.port (d.dest.first + j) = .idle) ∧
    (r.kind = .duplex → ∀ j < r.width,
      s.frameStart.selection r.source.port (r.source.first + j) = .idle) ∧
    ∃ e ∈ s.frameStart.attention, e.subject = .record id ∧ e.summary.state = true

/-- What a system frame start installs for a pending record: the conditioning code on a HELD record's
slots and where the selected source is failed, else the source's slot at the same offset; IDLE on the
slots of a LEAVING entry; a STAGED record becomes ACTIVE and is posted with STATE (R53, R96, R97, R98,
R99). -/
def Obligations.FrameStartInstallsPendingRecord : Prop :=
  ∀ (s : State) (id : Nat) (r : Record), s.MapInv → s.BindInv → s.records.get id = some r → r.pending = true →
    r.state ≠ .retiring →
    (∀ d ∈ r.dests, d.state ≠ .leaving → ∀ j < r.width,
      s.frameStart.selection d.dest.port (d.dest.first + j) =
        (if r.state = .held then .cond r.code
        else match r.standby, (s.contextOf r).map (fun kc => kc.2.selected) with
          | some e, some .standby =>
            if r.standbyBad then .cond r.code else .source e.port (e.first + j)
          | _, _ => if r.healthAB.bad then .cond r.code
            else .source r.source.port (r.source.first + j))) ∧
    (r.kind = .duplex → ∀ d ∈ r.dests, ∀ j < r.width,
      s.frameStart.selection r.source.port (r.source.first + j) =
        (if r.state = .held ∨ (∃ h, r.healthBA = some h ∧ h.bad = true) then .cond r.code
        else .source d.dest.port (d.dest.first + j))) ∧
    (∀ d ∈ r.dests, d.state = .leaving → ∀ j < r.width,
      s.frameStart.selection d.dest.port (d.dest.first + j) = .idle) ∧
    (r.state = .staged → (∃ r', s.frameStart.records.get id = some r' ∧ r'.state = .active) ∧
      ∃ e ∈ s.frameStart.attention, e.subject = .record id ∧ e.summary.state = true)

/-- The installed selections change at a system frame start and at the two resets alone: every other
command leaves them as they are, and a frame received does so too unless it is a mark of the selected
reference (R92). -/
def Obligations.SelectionsChangeAtFrameStartsAlone : Prop :=
  ∀ (c : Instr) (s t : State), exec c s = .next t →
    (∀ m, c ≠ .sfrMark m) → c ≠ .oscillatorFrameStart → c ≠ .deviceReset → c ≠ .rstAssert →
    (∀ n m x y, c = .alignedFrameReceived n m x y → s.ref.selection ≠ .port n) →
    t.selections = s.selections

/-! ### The reference monitor -/

/-- The mark window that closes with no mark counts as missed, and the third enters FREEWHEEL, from where
the next start is measured from the last one (R25). A mark of EXTERNAL in REF_OK (R24): from 124 to 125 µs
after the reference point it makes a system frame start; within 1 µs after the oscillator's start it is the
reference point; otherwise it is ignored. The edges of the window count as inside it (DEDUCED, log 4). The
model's choices: a MARK_WINDOW_CLOSE with no window open changes nothing (log 1), and a mark after 125 µs
whose oscillator start has not been commanded is ignored (logs 1 and 3). -/
def Obligations.MarkInRefOk : Prop :=
  (∀ s : State,
    (s.ref.state = .refOk → s.ref.windowOpen = true → s.ref.missed < 2 →
      exec .markWindowClose s = .next { s with ref :=
        { s.ref with missed := s.ref.missed + 1, windowOpen := false } }) ∧
    (s.ref.state = .refOk → s.ref.windowOpen = true → 2 ≤ s.ref.missed →
      exec .markWindowClose s = .next { s with ref :=
        { s.ref with state := .freewheel, point := s.ref.lastStart, windowOpen := false, missed := 0,
                     good := 0, lastMark := none } }) ∧
    (s.ref.state = .freewheel ∨ s.ref.windowOpen = false → exec .markWindowClose s = .next s)) ∧
  ∀ (s : State) (m : Nat), s.rst = false → s.ref.selection = .external → s.ref.state = .refOk →
    (s.ref.windowOpen = false → s.ref.point + 124000 ≤ m → m ≤ s.ref.point + 125000 →
      exec (.sfrMark m) s = .next (State.frameStart { s with ref :=
        { s.ref with point := m, lastStart := m, missed := 0 } })) ∧
    (s.ref.windowOpen = true → s.ref.point ≤ m → m ≤ s.ref.point + 1000 →
      exec (.sfrMark m) s = .next { s with ref :=
        { s.ref with point := m, missed := 0, windowOpen := false } }) ∧
    (s.ref.windowOpen = false → m < s.ref.point + 124000 ∨ s.ref.point + 125000 < m →
      exec (.sfrMark m) s = .next s) ∧
    (s.ref.windowOpen = true → m < s.ref.point ∨ s.ref.point + 1000 < m →
      exec (.sfrMark m) s = .next s)

/-- 126 µs with no mark in FREEWHEEL end the good-mark run. A mark of EXTERNAL there (R26, R27): the
good-mark run grows where the mark falls 124 to 126 µs after the last one and is 1 otherwise (the edges
count as inside, DEDUCED, log 4); the mark that brings it to 16 returns to REF_OK with a system frame start
at the mark, and every enabled port's slip buffer is recentred after its read. The frame in progress ends
there on every port: the bits sent by then are all of it that was sent, and the transmit frame moves by as
many places (R27; the count of bits is log 13, of places log 10). GOOD_MARK_TIMEOUT in REF_OK changing nothing is the model's
choice (log 1). -/
def Obligations.MarkInFreewheel : Prop :=
  (∀ s : State,
    (s.ref.state = .freewheel →
      exec .goodMarkTimeout s = .next { s with ref := { s.ref with good := 0, lastMark := none } }) ∧
    (s.ref.state = .refOk → exec .goodMarkTimeout s = .next s)) ∧
  ∀ (s : State) (m run sent : Nat), s.rst = false → s.ref.selection = .external → s.ref.state = .freewheel →
    run = (match s.ref.lastMark with
      | none => 1
      | some l => if l + 124000 ≤ m ∧ m ≤ l + 126000 then s.ref.good + 1 else 1) →
    sent = min 288 ((m - s.ref.lastStart) * 288 / 125000) →
    (run < 16 → exec (.sfrMark m) s = .next { s with ref :=
      { s.ref with good := run, lastMark := some m } }) ∧
    (16 ≤ run → ∃ t u, exec (.sfrMark m) s = .next t ∧
      u = State.frameStart { s with ref := { s.ref with
        state := .refOk, point := m, lastStart := m, windowOpen := false, missed := 0, good := 0,
        lastMark := none } } ∧
      (∀ n : PortNo, s.ports[n].config.enable = true →
        t.ports[n].slip =
          { u.ports[n].slip with waiting := [List.replicate 36 0xFF], writing := none, slot := [] }) ∧
      (∀ n : PortNo, s.ports[n].config.enable = false → t.ports[n].slip = u.ports[n].slip) ∧
      (∀ n : PortNo, t.ports[n] = { u.ports[n] with
        slip := t.ports[n].slip,
        txLast := s.ports[n].txLast.drop sent ++ s.ports[n].txBits.take sent,
        rxFirst := s.ports[n].rxFirst.bind fun k => if sent ≤ k then some (k - sent) else none,
        txPlace := u.ports[n].txPlace + Fin.ofNat 288 sent }) ∧
      t = { u with ports := t.ports })

/-- A frame of the selected port received in ALIGNED is a mark at its first bit, which falls before its
nibble is examined (R23, log 7), so that with the bits given in parts the previous frame's completion can be
taken on either side of the start that the mark makes (R32); in an INWARD loop that moment is the port's own,
the last system frame start where its place is its transmit frame's (R23, R103, log 10), or, where its mark
re-acquires, the coming one if the command's moment is that (R27 lets either go first; log 10), and a mark whose
overhead byte went on beyond the last start was taken at that start. The frame is then received in the state the
mark leaves: its ports and its list are those of the same frame with EXTERNAL selected, and the monitor enters
FREEWHEEL where it takes the framer out of ALIGNED (R5, R25). -/
def Obligations.SelectedPortFrameIsMark : Prop :=
  (∀ (s : State) (m : Nat), exec (.sfrMark m) { s with
      rst := false, ref := { s.ref with selection := .external } } =
    .next { s.mark m with rst := false, ref := { (s.mark m).ref with selection := .external } }) ∧
  ∀ (s : State) (n : PortNo) (m offset count : Nat) (nibble symbol : List Bool) (begins coming : Prop),
    s.ports[n].aligned = true → s.ref.selection = .port n →
    offset = (s.ports[n].framer.place - s.ports[n].txPlace).val →
    count = min 8 (nibble ++ symbol).length →
    (begins ↔ s.ports[n].framer.overhead = [] ∧ nibble ++ symbol ≠ []) →
    (coming ↔ offset = 0 ∧ m = s.ref.lastStart + 125000 ∧ s.ref.state = .freewheel ∧ 15 ≤ s.ref.good ∧
      ∃ l, s.ref.lastMark = some l ∧ l + 124000 ≤ m ∧ m ≤ l + 126000) →
    ∃ t u v, exec (.alignedFrameReceived n m nibble symbol) s = .next t ∧
      (¬ begins → u = s) ∧
      (begins → s.ports[n].maint.loop ≠ .inwardHost → u = s.mark m) ∧
      (begins → s.ports[n].maint.loop = .inwardHost → coming → u = s.mark m) ∧
      (begins → s.ports[n].maint.loop = .inwardHost → ¬ coming → offset + count ≤ 288 →
        u = s.mark (s.ref.lastStart + (offset * 125000 + 287) / 288)) ∧
      (begins → s.ports[n].maint.loop = .inwardHost → 288 < offset + count → u = s) ∧
      exec (.alignedFrameReceived n m nibble symbol)
        { u with ref := { u.ref with selection := .external } } = .next v ∧
      t.ports = v.ports ∧ t.attention = v.attention ∧
      t = { u with ports := t.ports, ref := t.ref, attention := t.attention } ∧
      (∀ k : PortNo, k ≠ n → t.ports[k] = u.ports[k]) ∧
      (t.ports[n].aligned = true → t.ref = u.ref) ∧
      (t.ports[n].aligned = false → t.ref = { u.ref with
        state := .freewheel, point := u.ref.lastStart, windowOpen := false, missed := 0, good := 0,
        lastMark := none })

/-- REF_SELECT (R29): a code that names neither selection, or a port above 15, is BAD_PARAM; the
selection in force changes nothing; another is stored and the monitor is in FREEWHEEL with its runs at 0. -/
def Obligations.RefSelectStoresSelection : Prop :=
  ∀ (s : State) (x : Execution) (sel port : Byte), s.handed (.refSelect sel port) x →
    (2 ≤ sel.toNat ∨ (sel = 1 ∧ 16 ≤ port.toNat) →
      exec (.refSelect sel port) s = .next (s.answering x ⟨.badParam, []⟩)) ∧
    (∀ y, (sel = 0 ∧ y = RefSelection.external) ∨ (sel = 1 ∧ ∃ n : PortNo, n.val = port.toNat ∧ y = .port n) →
      (s.ref.selection = y → exec (.refSelect sel port) s = .next (s.answering x
        ⟨.ok, [sel, if sel = 0 then 0 else port, if s.ref.state = .refOk then 0 else 1]⟩)) ∧
      (s.ref.selection ≠ y → exec (.refSelect sel port) s = .next
        (({ s with ref := { selection := y, state := .freewheel, point := s.ref.lastStart,
                            lastStart := s.ref.lastStart, windowOpen := false, missed := 0, good := 0,
                            lastMark := none } } : State).answering x
          ⟨.ok, [sel, if sel = 0 then 0 else port, 1]⟩)))

/-! ### Table requests -/

/-- The record checks of the requests that change a record, in their order: the id, the record, the
revision, and RETIRING (R49, R51, R78). Each refusal leaves the state as it was but for the answer; STALE
and WRONG_STATE carry the record's revision and state (R64). -/
def Obligations.RecordRequestsAreCheckedInOrder : Prop :=
  ∀ (c : Instr) (id : Half) (expected : Byte) (s : State) (x : Execution), s.handed c x →
    (c = .retire id expected ∨ c = .hold id expected ∨ c = .release id expected ∨
      c = .unprotect id expected ∨ (∃ b, c = .switch id expected b) ∨
      (∃ q, c = .modify q ∧ q.id = id ∧ q.expected = expected) ∨
      (∃ q, c = .protect q ∧ q.id = id ∧ q.expected = expected)) →
    (512 ≤ id.toNat → exec c s = .next (s.answering x ⟨.badParam, []⟩)) ∧
    (id.toNat < 512 → s.records.get id.toNat = none →
      exec c s = .next (s.answering x ⟨.notFound, []⟩)) ∧
    ∀ r, id.toNat < 512 → s.records.get id.toNat = some r →
      (r.revision ≠ expected →
        exec c s = .next (s.answering x ⟨.stale, [r.revision, r.state.number]⟩)) ∧
      (r.revision = expected → r.state = .retiring →
        exec c s = .next (s.answering x ⟨.wrongState, [r.revision, 4]⟩))

/-- What CONNECT asks of its parameters (R67, R68, R40, R42): the kind, the width, the count, every end in
the payload slots, and no two ends that transmit (or, for DUPLEX, its two ends) over a common slot; and
the triples in holding order (R41). -/
def Obligations.ConnectChecksItsParameters : Prop :=
  (∀ q : ConnectReq, (connectPlan q).isSome = true ↔
    (q.kind.toNat ≤ 2 ∧ 1 ≤ q.width.toNat ∧ q.width.toNat ≤ 35 ∧
      (q.kind.toNat ≤ 1 → q.dests.length = 1) ∧
      (q.kind.toNat = 2 → 2 ≤ q.dests.length ∧ q.dests.length ≤ 4) ∧
      (∀ e ∈ q.source :: q.dests, e.port.toNat ≤ 15 ∧ 1 ≤ e.first.toNat ∧
        e.first.toNat + q.width.toNat - 1 ≤ 35) ∧
      (q.kind.toNat ≠ 1 → q.dests.Pairwise (RawEnd.Apart q.width.toNat)) ∧
      (q.kind.toNat = 1 → ∀ d ∈ q.dests, RawEnd.Apart q.width.toNat q.source d))) ∧
  (∀ (q : ConnectReq) (p : ConnectPlan), connectPlan q = some p →
    p.kind.number = q.kind ∧ p.width = q.width.toNat ∧
    (p.source.port.val, p.source.first) = (q.source.port.toNat, q.source.first.toNat) ∧
    p.dests.map (fun e => (e.port.val, e.first)) =
      q.dests.map (fun e => (e.port.toNat, e.first.toNat))) ∧
  ∀ (w : Nat) (src : End) (dests : List End),
    connectTriples .simplex w src dests = connectTriples .branch w src dests ∧
    connectTriples .branch w src dests =
      (List.range w).map (fun k => (⟨src.port, src.first + k, .rx⟩ : Triple)) ++
        dests.flatMap (fun d => (List.range w).map fun k => (⟨d.port, d.first + k, .tx⟩ : Triple)) ∧
    ∀ b : End, connectTriples .duplex w src [b] =
      (List.range w).map (fun k => (⟨src.port, src.first + k, .rx⟩ : Triple)) ++
        (List.range w).map (fun k => (⟨src.port, src.first + k, .tx⟩ : Triple)) ++
        ((List.range w).map (fun k => (⟨b.port, b.first + k, .rx⟩ : Triple)) ++
          (List.range w).map (fun k => (⟨b.port, b.first + k, .tx⟩ : Triple)))

/-- CONNECT's outcomes in the order of its checks: BAD_PARAM (R67, R68), SLOT_TAKEN naming the first held
triple in holding order and its holder (R61, R69), TABLE_FULL (R70), and the record created at the lowest
FREE id, its triples reserved, and a leftover attention entry of the id removed (R54, R55, R59, R71). -/
def Obligations.ConnectTakesLowestFreeId : Prop :=
  ∀ (q : ConnectReq) (s : State) (x : Execution), s.handed (.connect q) x →
    (connectPlan q = none → exec (.connect q) s = .next (s.answering x ⟨.badParam, []⟩)) ∧
    ∀ p r, connectPlan q = some p →
      r = ({ state := .staged, kind := p.kind, width := p.width, source := p.source,
             dests := p.dests.map fun e => ⟨e, .inService⟩, standby := none, leaving := none,
             label := q.label, code := q.code.getD 0xFF, holdOff := (q.profile.map Prod.fst).getD 10,
             clearTime := (q.profile.map Prod.snd).getD 10, revision := 0, healthAB := ⟨.clear, 0⟩,
             healthBA := if p.kind = .duplex then some ⟨.clear, 0⟩ else none, healthS := none,
             pending := true, context := none, handOverDue := false } : Record) →
      (∀ before t after holder, r.triples = before ++ t :: after →
        (∀ u ∈ before, s.slotMap.get u.key = none) → s.slotMap.get t.key = some holder →
        exec (.connect q) s = .next (s.answering x ⟨.slotTaken,
          [BitVec.ofNat 8 t.port.val, BitVec.ofNat 8 t.slot, t.dir.number] ++
            halfBytes (BitVec.ofNat 16 holder)⟩)) ∧
      ((∀ u ∈ r.triples, s.slotMap.get u.key = none) → (∀ k < 512, s.records.get k ≠ none) →
        exec (.connect q) s = .next (s.answering x ⟨.tableFull, []⟩)) ∧
      (∀ id, (∀ u ∈ r.triples, s.slotMap.get u.key = none) → id < 512 → s.records.get id = none →
        (∀ k < id, s.records.get k ≠ none) →
        exec (.connect q) s = .next (({ s with
          records := s.records.put id r,
          slotMap := s.slotMap.putKeys (r.triples.map Triple.key) id,
          attention := s.attention.filter fun e => e.subject ≠ .record id } : State).answering x
            ⟨.ok, halfBytes (BitVec.ofNat 16 id) ++ [1, 0]⟩))

/-- MODIFY past the record checks: a combination of parts that does not fit is BAD_PARAM (R72); label,
code, hold-off and clear time are stored, the revision steps by 1, and a code makes the record pending
(R73, R76); health, timers, context, slot map and list stand. -/
def Obligations.ModifyStoresItsParts : Prop :=
  ∀ (q : ModifyReq) (s : State) (x : Execution) (r : Record), s.handed (.modify q) x →
    q.id.toNat < 512 → s.records.get q.id.toNat = some r → r.revision = q.expected →
    r.state ≠ .retiring →
    ((q.label = none ∧ q.code = none ∧ q.holdOff = none ∧ q.clearTime = none ∧ q.add = none ∧
        q.remove = none) ∨ (q.add.isSome = true ∧ q.remove.isSome = true) ∨
        ((q.add.isSome = true ∨ q.remove.isSome = true) ∧ r.kind ≠ .branch) →
      exec (.modify q) s = .next (s.answering x ⟨.badParam, []⟩)) ∧
    (q.add = none → q.remove = none →
      (q.label.isSome = true ∨ q.code.isSome = true ∨ q.holdOff.isSome = true ∨
        q.clearTime.isSome = true) →
      exec (.modify q) s = .next (({ s with
        records := s.records.put q.id.toNat { r with
          label := q.label.getD r.label, code := q.code.getD r.code,
          holdOff := q.holdOff.getD r.holdOff, clearTime := q.clearTime.getD r.clearTime,
          revision := r.revision + 1, pending := (r.pending || q.code.isSome) } } : State).answering x
        ⟨.ok, halfBytes q.id ++ [r.state.number, r.revision + 1]⟩))

/-- MODIFY of a BRANCH record's destinations. Adding one (R74): BAD_PARAM out of range, with four entries,
or over a triple of the record; SLOT_TAKEN for the first held triple; else a JOINING entry at the end of
the list, its triples reserved. Removing one (R75): BAD_PARAM past the list, of a LEAVING entry, or where
fewer than two would stay; else the entry is LEAVING in its place. -/
def Obligations.ModifyAddsAndRemovesDestinations : Prop :=
  ∀ (q : ModifyReq) (s : State) (x : Execution) (r r' : Record), s.handed (.modify q) x →
    q.id.toNat < 512 → s.records.get q.id.toNat = some r → r.revision = q.expected →
    r.state ≠ .retiring → r.kind = .branch →
    r' = { r with
      label := q.label.getD r.label, code := q.code.getD r.code,
      holdOff := q.holdOff.getD r.holdOff, clearTime := q.clearTime.getD r.clearTime,
      revision := r.revision + 1, pending := true } →
    (∀ e, q.add = some e → q.remove = none →
      (16 ≤ e.port.toNat ∨ e.first.toNat = 0 ∨ 36 < e.first.toNat + r.width ∨ 4 ≤ r.dests.length →
        exec (.modify q) s = .next (s.answering x ⟨.badParam, []⟩)) ∧
      ∀ (n : PortNo) (ts : List Triple), n.val = e.port.toNat → 1 ≤ e.first.toNat →
        e.first.toNat + r.width ≤ 36 → r.dests.length < 4 →
        ts = (List.range r.width).map (fun k => ⟨n, e.first.toNat + k, .tx⟩) →
        ((∃ t ∈ ts, t ∈ r.triples) → exec (.modify q) s = .next (s.answering x ⟨.badParam, []⟩)) ∧
        ((∀ t ∈ ts, t ∉ r.triples) →
          (∀ before t after holder, ts = before ++ t :: after →
            (∀ u ∈ before, s.slotMap.get u.key = none) → s.slotMap.get t.key = some holder →
            exec (.modify q) s = .next (s.answering x ⟨.slotTaken,
              [BitVec.ofNat 8 t.port.val, BitVec.ofNat 8 t.slot, t.dir.number] ++
                halfBytes (BitVec.ofNat 16 holder)⟩)) ∧
          ((∀ u ∈ ts, s.slotMap.get u.key = none) →
            exec (.modify q) s = .next (({ s with
              records := s.records.put q.id.toNat
                { r' with dests := r.dests ++ [⟨⟨n, e.first.toNat⟩, .joining⟩] },
              slotMap := s.slotMap.putKeys (ts.map Triple.key) q.id.toNat } : State).answering x
                ⟨.ok, halfBytes q.id ++ [r.state.number, r.revision + 1]⟩)))) ∧
    (∀ i, q.add = none → q.remove = some i →
      (∀ d, r.dests[i.toNat]? = some d → d.state ≠ .leaving →
        2 ≤ ((r.dests.set i.toNat { d with state := .leaving }).filter
          fun d => d.state ≠ .leaving).length →
        exec (.modify q) s = .next (({ s with
          records := s.records.put q.id.toNat
            { r' with dests := r.dests.set i.toNat { d with state := .leaving } } } : State).answering x
            ⟨.ok, halfBytes q.id ++ [r.state.number, r.revision + 1]⟩)) ∧
      (r.dests[i.toNat]? = none ∨ (∃ d, r.dests[i.toNat]? = some d ∧ (d.state = .leaving ∨
          ((r.dests.set i.toNat { d with state := .leaving }).filter
            fun d => d.state ≠ .leaving).length < 2)) →
        exec (.modify q) s = .next (s.answering x ⟨.badParam, []⟩)))

/-- RETIRE of a STAGED record frees it at once, with its triples and its context; of an ACTIVE or HELD one
it makes it RETIRING and pending, with no revision step (R52, R77). HOLD takes an ACTIVE record to HELD and
RELEASE a HELD one to ACTIVE, pending and stepped by 1; in the other states they are WRONG_STATE (R51, R79,
R80). -/
def Obligations.RetireHoldAndReleaseMoveRecord : Prop :=
  ∀ (id : Half) (expected : Byte) (s : State) (x : Execution) (r : Record), id.toNat < 512 →
    s.records.get id.toNat = some r → r.revision = expected →
    (s.handed (.retire id expected) x →
      (r.state = .staged → exec (.retire id expected) s = .next (({ s with
        records := s.records.del id.toNat, slotMap := s.slotMap.delValue id.toNat,
        contexts := (match r.context with | some k => s.contexts.del k | none => s.contexts) } :
          State).answering x ⟨.ok, halfBytes id ++ [0, r.revision]⟩)) ∧
      (r.state = .active ∨ r.state = .held → exec (.retire id expected) s = .next (({ s with
        records := s.records.put id.toNat { r with state := .retiring, pending := true } } :
          State).answering x ⟨.ok, halfBytes id ++ [4, r.revision]⟩))) ∧
    (s.handed (.hold id expected) x →
      (r.state = .active → exec (.hold id expected) s = .next (({ s with
        records := s.records.put id.toNat { r with
          state := .held, revision := r.revision + 1, pending := true } } : State).answering x
          ⟨.ok, halfBytes id ++ [3, r.revision + 1]⟩)) ∧
      (r.state ≠ .active → exec (.hold id expected) s =
        .next (s.answering x ⟨.wrongState, [r.revision, r.state.number]⟩))) ∧
    (s.handed (.release id expected) x →
      (r.state = .held → exec (.release id expected) s = .next (({ s with
        records := s.records.put id.toNat { r with
          state := .active, revision := r.revision + 1, pending := true } } : State).answering x
          ⟨.ok, halfBytes id ++ [2, r.revision + 1]⟩)) ∧
      (r.state ≠ .held → exec (.release id expected) s =
        .next (s.answering x ⟨.wrongState, [r.revision, r.state.number]⟩)))

/-- QUERY, PORT_QUERY and DEVICE_QUERY complete on every record, port and part, answer with every field as
it stands, the flags, the destination entries with their states and looped flags and the health of every
direction among them, and change nothing (R20, R82, R83, R185, R190). A FREE record is NOT_FOUND, and an id
above 511 or a port above 15 BAD_PARAM. -/
def Obligations.QueriesReportAndChangeNothing : Prop :=
  ∀ (s : State) (x : Execution),
    (∀ id : Half, s.handed (.query id) x →
      (512 ≤ id.toNat → exec (.query id) s = .next (s.answering x ⟨.badParam, []⟩)) ∧
      (id.toNat < 512 → s.records.get id.toNat = none →
        exec (.query id) s = .next (s.answering x ⟨.notFound, []⟩)) ∧
      (∀ r, id.toNat < 512 → s.records.get id.toNat = some r → ∃ b : List Byte,
        exec (.query id) s = .next (s.answering x ⟨.ok, b⟩) ∧ b.length = 43 ∧
        b.take 6 = halfBytes id ++ [r.state.number, r.kind.number, BitVec.ofNat 8 r.width, r.revision] ∧
        b[6]? = some ((if r.pending then 1 else 0) + (if r.standby.isSome then 2 else 0) +
          (if r.leaving.isSome then 4 else 0) + (if (r.context.bind s.contexts.get).isSome then 8 else 0) +
          (if r.kind = .duplex ∧ (s.ports[r.source.port].maint.loop = .returnHost ∨
            s.ports[r.source.port].maint.loop = .returnCode) then 16 else 0)) ∧
        (b.drop 7).take 3 = [BitVec.ofNat 8 r.source.port.val, BitVec.ofNat 8 r.source.first,
          BitVec.ofNat 8 r.dests.length] ∧
        (∀ i < 4, (b.drop (10 + 2 * i)).take 2 = (match r.dests[i]? with
          | none => [0, 0]
          | some d => [BitVec.ofNat 8 (d.dest.port.val * 16 +
              (match d.state with | .inService => 0 | .joining => 4 | .leaving => 8) +
              (if s.ports[d.dest.port].maint.loop = .returnHost ∨
                s.ports[d.dest.port].maint.loop = .returnCode then 1 else 0)),
            BitVec.ofNat 8 d.dest.first])) ∧
        (b.drop 18).take 2 = (match r.standby, r.leaving with
          | some e, _ => [BitVec.ofNat 8 e.port.val, BitVec.ofNat 8 e.first]
          | none, some e => [BitVec.ofNat 8 e.port.val, BitVec.ofNat 8 e.first]
          | none, none => [0, 0]) ∧
        (b.drop 20).take 7 = wordBytes r.label ++ [r.code, r.holdOff, r.clearTime] ∧
        (b.drop 27).take 2 = halfBytes (BitVec.ofNat 16
          (r.healthAB.state.number.toNat * 16384 + r.healthAB.timer % 4096)) ∧
        (b.drop 29).take 2 = (match r.healthBA with
          | none => [0, 0]
          | some h => halfBytes (BitVec.ofNat 16 (h.state.number.toNat * 16384 + h.timer % 4096))) ∧
        (b.drop 31).take 2 = (match r.healthS with
          | none => [0, 0]
          | some h => halfBytes (BitVec.ofNat 16 (h.state.number.toNat * 16384 + h.timer % 4096))) ∧
        (r.context = none → b.drop 33 = [0xFF, 0, 0, 0, 0, 0, 0, 0, 0, 0]) ∧
        (∀ k c, r.context = some k → s.contexts.get k = some c → b.drop 33 =
          [BitVec.ofNat 8 k, BitVec.ofNat 8 (c.mode.number.toNat + 2 * c.selected.number.toNat),
            c.request.number] ++ wordBytes (BitVec.ofNat 32 c.wtrLeft) ++
            halfBytes (BitVec.ofNat 16 c.switches) ++ [c.wtrTime]))) ∧
    (∀ port : Byte, s.handed (.portQuery port) x →
      (16 ≤ port.toNat → exec (.portQuery port) s = .next (s.answering x ⟨.badParam, []⟩)) ∧
      (∀ (n : PortNo) (p : Port), n.val = port.toNat → p = s.ports[n] →
        exec (.portQuery port) s = .next (s.answering x ⟨.ok,
          [port, (if p.config.enable then 1 else 0) + (if p.config.codeResponse then 2 else 0) +
            (if p.config.farSend then 4 else 0), p.config.idleCode, p.config.threshold,
            p.config.loopTimeout, p.framer.state.number, p.sourceDefect.number,
            p.maint.loop.number + (if p.maint.farAlarm then 16 else 0)] ++
            halfBytes (BitVec.ofNat 16 p.slip.slips) ++
            halfBytes (BitVec.ofNat 16 p.framer.erroredCount) ++
            [BitVec.ofNat 8 p.slip.periodSlips, BitVec.ofNat 8 p.slip.fill]⟩))) ∧
    (s.handed .deviceQuery x → exec .deviceQuery s = .next (s.answering x ⟨.ok,
      [0x0E, 0xB1, 0x63, 0x60] ++
        (match s.ref.selection with | .external => [0, 0] | .port n => [1, BitVec.ofNat 8 n.val]) ++
        [if s.ref.state = .freewheel then 1 else 0] ++
        halfBytes (BitVec.ofNat 16 s.records.length) ++ [BitVec.ofNat 8 (128 - s.contexts.length)] ++
        halfBytes (BitVec.ofNat 16 s.attention.length) ++
        [(if s.enableM then 1 else 0) + (if s.enableS then 2 else 0)]⟩))

/-- FIND: the checks of its triple, and what it reports of the holder: its role, the destination's index
and entry state or whether the standby is leaving, the offset, the state and the revision (R84). -/
def Obligations.FindReportsHolder : Prop :=
  ∀ (port slot direction : Byte) (s : State) (x : Execution), s.handed (.find port slot direction) x →
    (16 ≤ port.toNat ∨ slot.toNat = 0 ∨ 35 < slot.toNat ∨ 2 ≤ direction.toNat →
      exec (.find port slot direction) s = .next (s.answering x ⟨.badParam, []⟩)) ∧
    ∀ (n : PortNo) (dir : Dir) (t : Triple), n.val = port.toNat → 1 ≤ slot.toNat → slot.toNat ≤ 35 →
      dir.number = direction → t = ⟨n, slot.toNat, dir⟩ →
      (s.slotMap.get t.key = none →
        exec (.find port slot direction) s = .next (s.answering x ⟨.notFound, []⟩)) ∧
      ∀ id r, s.slotMap.get t.key = some id → s.records.get id = some r →
        exec (.find port slot direction) s = .next (s.answering x
          ⟨.ok, halfBytes (BitVec.ofNat 16 id) ++ r.role t ++ [r.state.number, r.revision]⟩) ∧
        (r.kind ≠ .duplex → dir = .rx → r.source.covers r.width n slot.toNat = true →
          r.role t = [0, 0, 0, BitVec.ofNat 8 (slot.toNat - r.source.first)]) ∧
        (∀ e, r.kind ≠ .duplex → dir = .rx → r.source.covers r.width n slot.toNat = false →
          r.standby = some e → r.role t = [1, 0, 0, BitVec.ofNat 8 (slot.toNat - e.first)]) ∧
        (∀ e, r.kind ≠ .duplex → dir = .rx → r.source.covers r.width n slot.toNat = false →
          r.standby = none → r.leaving = some e →
          r.role t = [1, 0, 1, BitVec.ofNat 8 (slot.toNat - e.first)]) ∧
        (∀ before d after, r.kind ≠ .duplex → dir = .tx → r.dests = before ++ d :: after →
          (∀ u ∈ before, u.dest.covers r.width n slot.toNat = false) →
          d.dest.covers r.width n slot.toNat = true →
          r.role t = [2, BitVec.ofNat 8 before.length, d.state.number,
            BitVec.ofNat 8 (slot.toNat - d.dest.first)]) ∧
        (r.kind = .duplex → r.source.covers r.width n slot.toNat = true →
          r.role t = [3, 0, 0, BitVec.ofNat 8 (slot.toNat - r.source.first)]) ∧
        (∀ d, r.kind = .duplex → r.source.covers r.width n slot.toNat = false → r.dests = [d] →
          r.role t = [4, 0, 0, BitVec.ofNat 8 (slot.toNat - d.dest.first)])

/-- NEXT (R86): BAD_PARAM for a start above 511; else the lowest non-FREE id at or above the start with
its record's state, kind and label, or NOT_FOUND where there is none; nothing changes. -/
def Obligations.NextReturnsLowestNonFree : Prop :=
  ∀ (start : Half) (s : State) (x : Execution), s.TablesWf → s.handed (.nextRecord start) x →
    (512 ≤ start.toNat → exec (.nextRecord start) s = .next (s.answering x ⟨.badParam, []⟩)) ∧
    (∀ id r, start.toNat < 512 → start.toNat ≤ id → s.records.get id = some r →
      (∀ k, start.toNat ≤ k → k < id → s.records.get k = none) →
      exec (.nextRecord start) s = .next (s.answering x ⟨.ok,
        halfBytes (BitVec.ofNat 16 id) ++ [r.state.number, r.kind.number] ++ wordBytes r.label⟩)) ∧
    (start.toNat < 512 → (∀ k, start.toNat ≤ k → s.records.get k = none) →
      exec (.nextRecord start) s = .next (s.answering x ⟨.notFound, []⟩))

/-! ### Protection -/

/-- PROTECT past its record checks (R127, R128): WRONG_STATE, BAD_PARAM, SLOT_TAKEN, NO_CONTEXT, or the
standby set, its triples reserved, health S created, the hand-over due and the lowest free context bound
with its starting fields (R125). UNPROTECT (R129): WRONG_STATE with no context, else the context is free,
the standby is the leaving standby and its triples stay held. The revision steps by 1; nothing is posted. -/
def Obligations.ProtectBindsAndUnprotectFreesContext : Prop :=
  (∀ (q : ProtectReq) (s : State) (x : Execution) (r : Record), s.handed (.protect q) x →
    q.id.toNat < 512 → s.records.get q.id.toNat = some r → r.revision = q.expected →
    (r.state = .retiring ∨ r.context.isSome = true ∨ r.leaving.isSome = true →
      exec (.protect q) s = .next (s.answering x ⟨.wrongState, [r.revision, r.state.number]⟩)) ∧
    (r.state ≠ .retiring → r.context = none → r.leaving = none →
      (r.kind = .duplex ∨ 16 ≤ q.standby.port.toNat ∨ q.standby.first.toNat = 0 ∨
          36 < q.standby.first.toNat + r.width ∨ 2 ≤ q.mode.toNat ∨ q.wtr = some 0 →
        exec (.protect q) s = .next (s.answering x ⟨.badParam, []⟩)) ∧
      ∀ (n : PortNo) (mode : Mode) (ts : List Triple), r.kind ≠ .duplex →
        n.val = q.standby.port.toNat → 1 ≤ q.standby.first.toNat →
        q.standby.first.toNat + r.width ≤ 36 → mode.number = q.mode → q.wtr ≠ some 0 →
        ts = (List.range r.width).map (fun k => ⟨n, q.standby.first.toNat + k, .rx⟩) →
        ((∃ t ∈ ts, t ∈ r.triples) →
          exec (.protect q) s = .next (s.answering x ⟨.badParam, []⟩)) ∧
        ((∀ t ∈ ts, t ∉ r.triples) →
          (∀ before t after holder, ts = before ++ t :: after →
            (∀ u ∈ before, s.slotMap.get u.key = none) → s.slotMap.get t.key = some holder →
            exec (.protect q) s = .next (s.answering x ⟨.slotTaken,
              [BitVec.ofNat 8 t.port.val, BitVec.ofNat 8 t.slot, t.dir.number] ++
                halfBytes (BitVec.ofNat 16 holder)⟩)) ∧
          ((∀ u ∈ ts, s.slotMap.get u.key = none) → (∀ k < 128, s.contexts.get k ≠ none) →
            exec (.protect q) s = .next (s.answering x ⟨.noContext, []⟩)) ∧
          (∀ k, (∀ u ∈ ts, s.slotMap.get u.key = none) → k < 128 → s.contexts.get k = none →
            (∀ j < k, s.contexts.get j ≠ none) →
            exec (.protect q) s = .next (({ s with
              records := s.records.put q.id.toNat { r with
                standby := some ⟨n, q.standby.first.toNat⟩, healthS := some ⟨.clear, 0⟩,
                handOverDue := true, context := some k, revision := r.revision + 1 },
              slotMap := s.slotMap.putKeys (ts.map Triple.key) q.id.toNat,
              contexts := s.contexts.put k
                { record := q.id.toNat, mode := mode, wtrTime := q.wtr.getD 30, request := .none,
                  selected := .working, wtrLeft := 0, wtrMark := .plain, switches := 0 } } :
                State).answering x
              ⟨.ok, halfBytes q.id ++ [r.state.number, r.revision + 1, BitVec.ofNat 8 k]⟩))))) ∧
  ∀ (id : Half) (expected : Byte) (s : State) (x : Execution) (r : Record),
    s.handed (.unprotect id expected) x → id.toNat < 512 → s.records.get id.toNat = some r →
    r.revision = expected → r.state ≠ .retiring →
    (r.context = none → exec (.unprotect id expected) s =
      .next (s.answering x ⟨.wrongState, [r.revision, r.state.number]⟩)) ∧
    (∀ k c, r.context = some k → s.contexts.get k = some c →
      exec (.unprotect id expected) s = .next (({ s with
        records := s.records.put id.toNat { r with
          standby := none, leaving := r.standby, healthS := none, handOverDue := false,
          context := none, pending := true, revision := r.revision + 1 },
        contexts := s.contexts.del k } : State).answering x
          ⟨.ok, halfBytes id ++ [r.state.number, r.revision + 1, BitVec.ofNat 8 k] ++
            halfBytes (BitVec.ofNat 16 c.switches)⟩))

/-- SWITCH past its record checks (R132 to R135): WRONG_STATE with no context or where the command is
refused in the request state or against the health of its target, BAD_PARAM for a command that is none of
the five; else the request state and the selected source of the tables, the wait-to-restore timer at 0,
and, where the selected source changes, the switch counted, the record pending and SELECT posted (R131).
The revision stands. -/
def Obligations.SwitchCommandsMoveContext : Prop :=
  ∀ (id : Half) (expected command : Byte) (s : State) (x : Execution) (r : Record),
    s.handed (.switch id expected command) x → id.toNat < 512 → s.records.get id.toNat = some r →
    r.revision = expected → r.state ≠ .retiring →
    (r.context = none → exec (.switch id expected command) s =
      .next (s.answering x ⟨.wrongState, [r.revision, r.state.number]⟩)) ∧
    ∀ (k : Nat) (c : Context) (out : Option (ReqState × Selected)), r.context = some k →
      s.contexts.get k = some c →
      out = (match command.toNat, c.request with
        | 1, .holdWorking => none
        | 1, _ => some (.holdWorking, .working)
        | 2, .holdWorking | 2, .failStandby | 2, .forceStandby => none
        | 2, _ => some (.forceStandby, .standby)
        | 3, .none | 3, .restoreWait | 3, .manualWorking =>
          if r.standbyBad then none else some (.manualStandby, .standby)
        | 3, _ => none
        | 4, .none | 4, .restoreWait | 4, .manualStandby =>
          if r.healthAB.bad then none else some (.manualWorking, .working)
        | 4, _ => none
        | 5, .none | 5, .restoreWait | 5, .failWorking | 5, .failStandby => none
        | 5, _ =>
          if r.standbyBad then some (.failStandby, .working)
          else if r.healthAB.bad then some (.failWorking, .standby)
          else if c.mode = .revertive then some (.none, .working)
          else some (.none, c.selected)
        | _, _ => none) →
      (command.toNat = 0 ∨ 5 < command.toNat → exec (.switch id expected command) s =
        .next (s.answering x ⟨.badParam, []⟩)) ∧
      (1 ≤ command.toNat → command.toNat ≤ 5 → out = none →
        exec (.switch id expected command) s =
          .next (s.answering x ⟨.wrongState, [r.revision, r.state.number]⟩)) ∧
      (∀ y sel, out = some (y, sel) → sel = c.selected →
        exec (.switch id expected command) s = .next (({ s with
          contexts := s.contexts.put k
            { c with request := y, selected := sel, wtrLeft := 0, wtrMark := .plain } } :
            State).answering x
          ⟨.ok, halfBytes id ++ [r.state.number, r.revision, y.number, sel.number] ++
            halfBytes (BitVec.ofNat 16 c.switches)⟩)) ∧
      (∀ y sel count, out = some (y, sel) → sel ≠ c.selected →
        count = (if c.switches < 65535 then c.switches + 1 else c.switches) →
        exec (.switch id expected command) s = .next (({ s with
          contexts := s.contexts.put k
            { c with request := y, selected := sel, wtrLeft := 0, wtrMark := .plain,
                     switches := count },
          records := s.records.put id.toNat { r with pending := true },
          attention := postTo s.attention (.record id.toNat) .select } : State).answering x
          ⟨.ok, halfBytes id ++ [r.state.number, r.revision, y.number, sel.number] ++
            halfBytes (BitVec.ofNat 16 count)⟩))

/-- What an evaluation hands to a bound context (R116, R117): after PROTECT's hand-over mark a fail for
each failed source, else each change of fail condition; the standby request is taken first and the
working request in the request state that results (R136, R137), with the consequences of R131. The timer
of a wait set before its frame start is marked so (DEDUCED, log 9). -/
def Obligations.FailRequestsMoveContext : Prop :=
  ∀ (turn : Turn) (s t : State) (id k : Nat) (r r' : Record) (c c1 c2 : Context)
    (sb wk : Option Bool),
    s.BindInv → s.interval.ready 80 turn = true →
    exec (.supervisionIntervalExpiry turn) s = .next t →
    s.records.get id = some r → r.state = .active ∨ r.state = .held → r.context = some k →
    s.contexts.get k = some c → t.records.get id = some r' →
    sb = (if r.handOverDue = true ∧ r'.standbyBad = true then some true
      else if r.handOverDue = false ∧ r.standbyBad ≠ r'.standbyBad then some r'.standbyBad
      else none) →
    wk = (if r.handOverDue = true ∧ r'.healthAB.bad = true then some true
      else if r.handOverDue = false ∧ r.healthAB.bad ≠ r'.healthAB.bad then some r'.healthAB.bad
      else none) →
    c1 = (match sb, c.request with
      | none, _ | some true, .holdWorking | some true, .failStandby => c
      | some true, _ =>
        { c with request := .failStandby, selected := .working, wtrLeft := 0, wtrMark := .plain }
      | some false, .failStandby =>
        if r'.standbyBad then
          { c with request := .failStandby, selected := .working, wtrLeft := 0, wtrMark := .plain }
        else if r'.healthAB.bad then
          { c with request := .failWorking, selected := .standby, wtrLeft := 0, wtrMark := .plain }
        else
          { c with request := .none, wtrLeft := 0, wtrMark := .plain,
                   selected := if c.mode = .revertive then .working else c.selected }
      | some false, _ => c) →
    c2 = (match wk, c1.request with
      | none, _ => c1
      | some true, .none | some true, .restoreWait | some true, .manualStandby
      | some true, .manualWorking =>
        { c1 with request := .failWorking, selected := .standby, wtrLeft := 0, wtrMark := .plain }
      | some true, _ => c1
      | some false, .failWorking =>
        if c1.mode = .revertive then
          { c1 with request := .restoreWait, selected := .standby,
                    wtrLeft := c1.wtrTime.toNat * 80000,
                    wtrMark := if turn = .before then .fresh else .plain }
        else
          { c1 with request := .none, selected := .standby, wtrLeft := 0, wtrMark := .plain }
      | some false, _ => c1) →
    (c2.selected = c.selected → t.contexts.get k = some c2) ∧
    (c2.selected ≠ c.selected →
      t.contexts.get k = some { c2 with
        switches := if c.switches < 65535 then c.switches + 1 else c.switches } ∧
      r'.pending = true ∧ ∃ e ∈ t.attention, e.subject = .record id ∧ e.summary.select = true)

/-- A wait-to-restore expiry (R139): in RESTORE_WAIT, its timer run out, on an ACTIVE or HELD record, the
context is in NONE with WORKING selected; the switch is counted, the record pending and SELECT posted
(R131). Every other context stands, and a record whose selected source did not switch stands with no SELECT
posted for it. Which frame start installs the switch, against the last row of R140, is log 22; the two turns
are log 8. -/
def Obligations.WaitToRestoreExpiryReturnsToWorking : Prop :=
  ∀ (turn : Turn) (s : State), s.BindInv →
    ∃ t, exec (.waitToRestoreExpiry turn) s = .next t ∧
      t = { s with records := t.records, contexts := t.contexts, attention := t.attention } ∧
      (∀ (id : Nat) (r : Record) (switches : Prop), s.records.get id = some r →
        (switches ↔ ∃ k c, r.context = some k ∧ s.contexts.get k = some c ∧ c.selected = .standby ∧
          c.request = .restoreWait ∧ (r.state = .active ∨ r.state = .held) ∧
          ((turn = .before ∧ c.wtrLeft = 1 ∧ c.wtrMark = .plain) ∨
            (turn = .after ∧ c.wtrMark = .due))) →
        (switches → t.records.get id = some { r with pending := true }) ∧
        (¬ switches → t.records.get id = some r ∧
          ∀ e ∈ t.attention, e.subject = .record id → e.summary.select = true →
            ∃ e' ∈ s.attention, e'.subject = .record id ∧ e'.summary.select = true)) ∧
      (∀ id, s.records.get id = none → t.records.get id = none) ∧
      (∀ k, s.contexts.get k = none → t.contexts.get k = none) ∧
      ∀ id r k c, s.records.get id = some r → r.context = some k → s.contexts.get k = some c →
        (c.request = .restoreWait → r.state = .active ∨ r.state = .held →
          (turn = .before ∧ c.wtrLeft = 1 ∧ c.wtrMark = .plain) ∨ (turn = .after ∧ c.wtrMark = .due) →
          t.contexts.get k = some { c with
            request := .none, selected := .working, wtrLeft := 0, wtrMark := .plain,
            switches := if c.selected = .working then c.switches
              else if c.switches < 65535 then c.switches + 1 else c.switches } ∧
          (c.selected = .standby →
            ∃ e ∈ t.attention, e.subject = .record id ∧ e.summary.select = true)) ∧
        (c.request ≠ .restoreWait ∨ r.state = .staged ∨ r.state = .retiring ∨
          (turn = .before ∧ (c.wtrLeft ≠ 1 ∨ c.wtrMark ≠ .plain)) ∨
          (turn = .after ∧ c.wtrMark ≠ .due) → t.contexts.get k = some c)

/-! ### Supervision -/

/-- A supervision interval expiry, taken after its frame start or before it (the two turns are log 8),
evaluates every direction of every ACTIVE or HELD record from the source defect of its source end's port
(R107, R108), by the health machine (R109 to R113); a change of fail condition makes the record pending and
posts HEALTH, a move within a group does neither (R114). STAGED and RETIRING records stand. -/
def Obligations.EvaluationMovesHealth : Prop :=
  ∀ (turn : Turn) (s : State), s.BindInv → s.interval.ready 80 turn = true →
    ∃ t, exec (.supervisionIntervalExpiry turn) s = .next t ∧
      t = { s with records := t.records, contexts := t.contexts, attention := t.attention,
                   interval := s.interval.take turn } ∧
      (∀ id, s.records.get id = none → t.records.get id = none) ∧
      ∀ id r, s.records.get id = some r → ∃ r', t.records.get id = some r' ∧
        (r.state = .staged ∨ r.state = .retiring → r' = r) ∧
        (r.state = .active ∨ r.state = .held → ∀ crossing : Prop,
          (crossing ↔ (r.healthAB.bad ≠ r'.healthAB.bad ∨
            (∃ h h', r.healthBA = some h ∧ r'.healthBA = some h' ∧ h.bad ≠ h'.bad) ∨
            (∃ h h', r.healthS = some h ∧ r'.healthS = some h' ∧ h.bad ≠ h'.bad))) →
          r' = { r with healthAB := r'.healthAB, healthBA := r'.healthBA, healthS := r'.healthS,
                        pending := r'.pending, handOverDue := false } ∧
          Health.MovesTo r.holdOff r.clearTime (decide (s.ports[r.source.port].sourceDefect ≠ .none))
            r.healthAB r'.healthAB ∧
          (r.healthBA = none → r'.healthBA = none) ∧ (r.healthS = none → r'.healthS = none) ∧
          (∀ h d rest, r.healthBA = some h → r.dests = d :: rest → ∃ h', r'.healthBA = some h' ∧
            Health.MovesTo r.holdOff r.clearTime (decide (s.ports[d.dest.port].sourceDefect ≠ .none))
              h h') ∧
          (∀ h e, r.healthS = some h → r.standby = some e → ∃ h', r'.healthS = some h' ∧
            Health.MovesTo r.holdOff r.clearTime (decide (s.ports[e.port].sourceDefect ≠ .none))
              h h') ∧
          (crossing → r'.pending = true ∧
            ∃ e ∈ t.attention, e.subject = .record id ∧ e.summary.health = true) ∧
          (¬ crossing → (r.context = none → r'.pending = r.pending) ∧
            ∀ e ∈ t.attention, e.subject = .record id → e.summary.health = true →
              ∃ e' ∈ s.attention, e'.subject = .record id ∧ e'.summary.health = true))

/-! ### Loops and bursts -/

/-- A loop timer expiry sets a RETURN_CODE loop OFF, its timer at 0, and posts LOOP (R156); every other
port stands. The two turns are log 8. The end of a burst's last frame clears the model's mark that it
runs and nothing else (R159, log 14). -/
def Obligations.LoopTimerExpiryEndsCodeLoop : Prop :=
  (∀ (s : State) (n : PortNo),
    (s.ports[n].maint.burstLeft = 0 → exec (.sendCodeBurstEnd n) s = .next { s with
      ports := s.ports.set n { s.ports[n] with
        maint := { s.ports[n].maint with burstRunning := false } } }) ∧
    (s.ports[n].maint.burstLeft ≠ 0 → exec (.sendCodeBurstEnd n) s = .next s)) ∧
  ∀ (turn : Turn) (s : State), ∃ t, exec (.loopTimerExpiry turn) s = .next t ∧
    t = { s with ports := t.ports, attention := t.attention } ∧
    ∀ n : PortNo, ∀ ready : Prop,
      (ready ↔ s.ports[n].maint.loop = .returnCode ∧
        ((turn = .before ∧ s.ports[n].maint.loopTimer = 1 ∧ s.ports[n].maint.loopMark = .plain) ∨
          (turn = .after ∧ s.ports[n].maint.loopMark = .due))) →
      (ready → t.ports[n] = { s.ports[n] with
          maint := { s.ports[n].maint with loop := .off, loopTimer := 0, loopMark := .plain } } ∧
        ∃ e ∈ t.attention, e.subject = .port n ∧ e.summary.loop = true) ∧
      (¬ ready → t.ports[n] = s.ports[n])

/-- PORT_LOOP and PORT_SEND_CODE (R151, R158): BAD_PARAM for a port or a command or code that is none,
WRONG_STATE on a disabled port. PORT_LOOP sets the loop state with its timer at 0 and reports it before
and after; entering INWARD_HOST removes SIG_LOST, and leaving it LOS_n is followed again. The framer, its
search and its frame period go on over either change, but for the SEARCH that SIG_LOST forces (R153). The loop
state in force changes nothing. PORT_SEND_CODE sets the burst and reports what was left; 0 with no burst
left changes nothing. -/
def Obligations.LoopAndCodeRequestsSetPort : Prop :=
  ∀ (s : State) (x : Execution) (port : Byte),
    (∀ command : Byte, s.handed (.portLoop port command) x →
      (16 ≤ port.toNat ∨ 3 ≤ command.toNat →
        exec (.portLoop port command) s = .next (s.answering x ⟨.badParam, []⟩)) ∧
      ∀ (n : PortNo) (l : LoopState), n.val = port.toNat →
        (command = 0 ∧ l = .off) ∨ (command = 1 ∧ l = .returnHost) ∨ (command = 2 ∧ l = .inwardHost) →
        (s.ports[n].config.enable = false →
          exec (.portLoop port command) s = .next (s.answering x ⟨.wrongState, []⟩)) ∧
        (s.ports[n].config.enable = true → s.ports[n].maint.loop = l →
          exec (.portLoop port command) s = .next (s.answering x ⟨.ok, [l.number, l.number]⟩)) ∧
        (s.ports[n].config.enable = true → s.ports[n].maint.loop ≠ l →
          ∃ t : State, exec (.portLoop port command) s = .next (t.answering x
              ⟨.ok, [s.ports[n].maint.loop.number, l.number]⟩) ∧
            t = { s with ports := t.ports, ref := t.ref, attention := t.attention } ∧
            (∀ m : PortNo, m ≠ n → t.ports[m] = s.ports[m]) ∧
            (t.ports[n].aligned = s.ports[n].aligned → t.ref = s.ref) ∧
            t.ports[n].maint.loop = l ∧ t.ports[n].maint.loopTimer = 0 ∧
            t.ports[n].config = s.ports[n].config ∧ t.ports[n].los = s.ports[n].los ∧
            t.ports[n].txSymbol = s.ports[n].txSymbol ∧ t.ports[n].txPayload = s.ports[n].txPayload ∧
            t.ports[n].txLast = s.ports[n].txLast ∧ t.ports[n].txPlace = s.ports[n].txPlace ∧
            (l = .inwardHost → t.ports[n].framer = s.ports[n].framer ∧
              t.ports[n].slip = s.ports[n].slip ∧
              t.ports[n].defects = { s.ports[n].defects with sigLost := false }) ∧
            (s.ports[n].maint.loop = .inwardHost → t.ports[n].defects.sigLost = s.ports[n].los ∧
              (s.ports[n].los = false → t.ports[n].framer = s.ports[n].framer ∧
                t.ports[n].slip = s.ports[n].slip) ∧
              (s.ports[n].los = true → t.ports[n].framer.state = .search ∧
                t.ports[n].framer.next = none ∧ t.ports[n].framer.recent = [])) ∧
            (l ≠ .inwardHost → s.ports[n].maint.loop ≠ .inwardHost → t.ports[n] = { s.ports[n] with
              maint := { s.ports[n].maint with loop := l, loopTimer := 0, loopMark := .plain } }))) ∧
    (∀ (code : Byte) (count : Half), s.handed (.portSendCode port code count) x →
      (16 ≤ port.toNat ∨ (code ≠ 0x6 ∧ code ≠ 0x9) →
        exec (.portSendCode port code count) s = .next (s.answering x ⟨.badParam, []⟩)) ∧
      ∀ (n : PortNo) (c : Code), n.val = port.toNat → c.number = code →
        (s.ports[n].config.enable = false →
          exec (.portSendCode port code count) s = .next (s.answering x ⟨.wrongState, []⟩)) ∧
        (s.ports[n].config.enable = true → count = 0 → s.ports[n].maint.burstLeft = 0 →
          exec (.portSendCode port code count) s = .next (s.answering x ⟨.ok, [0, 0]⟩)) ∧
        (s.ports[n].config.enable = true → count ≠ 0 ∨ s.ports[n].maint.burstLeft ≠ 0 →
          exec (.portSendCode port code count) s = .next (({ s with
            ports := s.ports.set n { s.ports[n] with
              maint := { s.ports[n].maint with burstCode := c, burstLeft := count.toNat,
                                               burstRunning := decide (count ≠ 0) } } } :
              State).answering x
            ⟨.ok, halfBytes (BitVec.ofNat 16 s.ports[n].maint.burstLeft)⟩)))

/-! ### Port configuration -/

/-- PORT_SET (R19): BAD_PARAM for a port above 15, no field, or a field out of its range; else the
present fields are stored and the absent ones stand, and then a change of enable is carried out: into
service with SIG_LOST by LOS_n, UNFRAMED and the slip buffer recentred (R17, R34), or out of service with
OFF alone, forced SEARCH, the slip buffer emptied and the maintenance unit cleared (R18, R35, R160). -/
def Obligations.PortSetStoresFieldsThenEnables : Prop :=
  ∀ (q : PortSetReq) (s : State) (x : Execution), s.handed (.portSet q) x →
    (16 ≤ q.port.toNat ∨
      (q.enable = none ∧ q.idleCode = none ∧ q.codeResponse = none ∧ q.farSend = none ∧
        q.threshold = none ∧ q.loopTimeout = none) ∨
      (∃ b, (q.enable = some b ∨ q.codeResponse = some b ∨ q.farSend = some b) ∧ 2 ≤ b.toNat) ∨
      q.threshold = some 0 →
      exec (.portSet q) s = .next (s.answering x ⟨.badParam, []⟩)) ∧
    ∀ (n : PortNo) (cfg : PortConfig), n.val = q.port.toNat →
      (q.enable ≠ none ∨ q.idleCode ≠ none ∨ q.codeResponse ≠ none ∨ q.farSend ≠ none ∨
        q.threshold ≠ none ∨ q.loopTimeout ≠ none) →
      (∀ b, q.enable = some b ∨ q.codeResponse = some b ∨ q.farSend = some b → b = 0 ∨ b = 1) →
      q.threshold ≠ some 0 →
      cfg = { enable := (q.enable.map fun b => decide (b = 1)).getD s.ports[n].config.enable,
              idleCode := q.idleCode.getD s.ports[n].config.idleCode,
              codeResponse :=
                (q.codeResponse.map fun b => decide (b = 1)).getD s.ports[n].config.codeResponse,
              farSend := (q.farSend.map fun b => decide (b = 1)).getD s.ports[n].config.farSend,
              threshold := q.threshold.getD s.ports[n].config.threshold,
              loopTimeout := q.loopTimeout.getD s.ports[n].config.loopTimeout } →
      ∃ t : State, exec (.portSet q) s = .next (t.answering x ⟨.ok, []⟩) ∧
        t = { s with ports := t.ports, ref := t.ref, attention := t.attention } ∧
        (∀ m : PortNo, m ≠ n → t.ports[m] = s.ports[m]) ∧ t.ports[n].config = cfg ∧
        t.ports[n].los = s.ports[n].los ∧ t.ports[n].txSymbol = s.ports[n].txSymbol ∧
        t.ports[n].txPayload = s.ports[n].txPayload ∧
        (cfg.enable = s.ports[n].config.enable →
          t = { s with ports := s.ports.set n { s.ports[n] with config := cfg } }) ∧
        (cfg.enable = true → s.ports[n].config.enable = false → s.ports[n].LineInv →
          s.ports[n].MaintInv →
          t.ports[n].defects = ⟨false, s.ports[n].los, false, true, false⟩ ∧
          t.ports[n].framer = { s.ports[n].framer with
            state := .search, verified := 0, next := none, recent := [], overhead := [], erroredRun := 0,
            allOnesRun := 0, period := ⟨none, 0, true⟩ } ∧
          t.ports[n].slip = { s.ports[n].slip with
            waiting := [List.replicate 36 0xFF], writing := none, slot := [] } ∧
          t.ports[n].maint = s.ports[n].maint ∧ t.ref = s.ref) ∧
        (cfg.enable = false → s.ports[n].config.enable = true →
          t.ports[n].defects = ⟨true, false, false, false, false⟩ ∧
          t.ports[n].framer = { s.ports[n].framer with
            state := .search, verified := 0, next := none, recent := [], overhead := [], erroredRun := 0,
            allOnesRun := 0,
            period := if s.ports[n].aligned then ⟨none, 0, true⟩ else s.ports[n].framer.period } ∧
          t.ports[n].slip = 
            { s.ports[n].slip with waiting := [], writing := none, slot := [], periodSlips := 0 } ∧
          t.ports[n].maint.loop = .off ∧ t.ports[n].maint.loopTimer = 0 ∧
          t.ports[n].maint.burstLeft = 0 ∧ t.ports[n].maint.runSym = none ∧
          t.ports[n].maint.runLength = 0 ∧ t.ports[n].maint.recognized = false ∧
          t.ports[n].maint.absence = 0 ∧ t.ports[n].maint.farAlarm = false ∧
          t.ports[n].maint.lastCode = none ∧
          (s.ref.selection = .port n → s.RefInv → t.ref.state = .freewheel) ∧
          (s.ref.selection ≠ .port n → t.ref = s.ref))

/-- PORT_CLEAR_COUNTS (R21): BAD_PARAM for a port above 15; else, on an enabled port and on a disabled
one, the two counters go into the response and are 0; the period slip count, SLIP_EXCESS, the fill and
all else stand. -/
def Obligations.PortClearCountsReturnsAndZeroes : Prop :=
  ∀ (port : Byte) (s : State) (x : Execution), s.handed (.portClearCounts port) x →
    (16 ≤ port.toNat → exec (.portClearCounts port) s = .next (s.answering x ⟨.badParam, []⟩)) ∧
    ∀ n : PortNo, n.val = port.toNat → exec (.portClearCounts port) s = .next (({ s with
      ports := s.ports.set n { s.ports[n] with
        framer := { s.ports[n].framer with erroredCount := 0 },
        slip := { s.ports[n].slip with slips := 0 } } } : State).answering x
      ⟨.ok, halfBytes (BitVec.ofNat 16 s.ports[n].slip.slips) ++
        halfBytes (BitVec.ofNat 16 s.ports[n].framer.erroredCount)⟩)

/-! ### The attention list -/

/-- ATTENTION removes the head entry and reports its subject, its summary, the entries left and the
subject's state at the step; EMPTY, with nothing changed, where the list is empty (R164, R165, R190). -/
def Obligations.AttentionFetchesHeadEntry : Prop :=
  ∀ (s : State) (x : Execution), s.handed .attention x →
    (s.attention = [] → exec .attention s = .next (s.answering x ⟨.empty, []⟩)) ∧
    (∀ id m rest, s.attention = ⟨.record id, m⟩ :: rest →
      exec .attention s = .next (({ s with attention := rest } : State).answering x
        ⟨.ok, ([0] : List Byte) ++ halfBytes (BitVec.ofNat 16 id) ++
          [(if m.health then (1 : Byte) else 0) + (if m.select then 2 else 0) +
            (if m.state then 4 else 0)] ++
          halfBytes (BitVec.ofNat 16 rest.length) ++
          (match s.records.get id with
          | none => [0, 0, 0, 0, 0, 0]
          | some r => [r.state.number, r.revision, r.healthAB.state.number,
            (match r.healthBA with | none => 0xFF | some h => h.state.number),
            (match r.healthS with | none => 0xFF | some h => h.state.number),
            (match s.contextOf r with | none => 0 | some kc => kc.2.selected.number)])⟩)) ∧
    (∀ (n : PortNo) m rest, s.attention = ⟨.port n, m⟩ :: rest →
      exec .attention s = .next (({ s with attention := rest } : State).answering x
        ⟨.ok, ([1] : List Byte) ++ halfBytes (BitVec.ofNat 16 n.val) ++
          [(if m.portDefect then (1 : Byte) else 0) + (if m.farAlarm then 2 else 0) +
            (if m.code then 4 else 0) + (if m.loop then 8 else 0)] ++
          halfBytes (BitVec.ofNat 16 rest.length) ++
          [s.ports[n].sourceDefect.number, (if s.ports[n].maint.farAlarm then 1 else 0),
            s.ports[n].maint.loop.number,
            (match s.ports[n].maint.lastCode with
              | none => 0 | some .loopUp => 6 | some .loopDown => 9)]⟩))

/-- ATTN_ENABLE stores each present enable, leaves an absent one and reports both; with neither present, or
a value above 1, it is BAD_PARAM (R168). RST taken low sets both to 0, and no other command writes them;
DEVICE_QUERY reports both. ATN_M is asserted exactly while its enable is 1 and the list holds an entry, and
ATN_S in the same way; RST taken low releases both (R169). -/
def Obligations.AttentionLinesFollowListAndEnables : Prop :=
  (∀ s : State, (s.atnM = true ↔ s.enableM = true ∧ s.attention ≠ []) ∧
    (s.atnS = true ↔ s.enableS = true ∧ s.attention ≠ [])) ∧
  (∀ s t : State, exec .rstAssert s = .next t →
    t.enableM = false ∧ t.enableS = false ∧ t.atnM = false ∧ t.atnS = false) ∧
  (∀ (c : Instr) (s t : State), exec c s = .next t → c ≠ .rstAssert →
    (∀ m e, c ≠ .attnEnable m e) → t.enableM = s.enableM ∧ t.enableS = s.enableS) ∧
  (∀ (s : State) (x : Execution), s.handed .deviceQuery x →
    ∃ b : List Byte, exec .deviceQuery s = .next (s.answering x ⟨.ok, b⟩) ∧
      b.getLast? = some ((if s.enableM then 1 else 0) + (if s.enableS then 2 else 0))) ∧
  ∀ (m e : Option Byte) (s : State) (x : Execution), s.handed (.attnEnable m e) x →
    ((m = none ∧ e = none) ∨ (∃ b, (m = some b ∨ e = some b) ∧ 2 ≤ b.toNat) →
      exec (.attnEnable m e) s = .next (s.answering x ⟨.badParam, []⟩)) ∧
    (∀ a b : Bool, m ≠ none ∨ e ≠ none → (m = none → a = s.enableM) →
      (∀ v, m = some v → (v = 0 ∧ a = false) ∨ (v = 1 ∧ a = true)) → (e = none → b = s.enableS) →
      (∀ v, e = some v → (v = 0 ∧ b = false) ∨ (v = 1 ∧ b = true)) →
      exec (.attnEnable m e) s = .next (({ s with enableM := a, enableS := b } : State).answering x
        ⟨.ok, [(if a then 1 else 0) + (if b then 2 else 0)]⟩))

/-! ### DEVICE_RESET -/

/-- DEVICE_RESET (R186): every table, selection, context and entry goes, every port's maintenance unit is
in its power-on state and its two counters are 0; a port in INWARD_HOST follows LOS_n again, and its
PORT_DEFECT alone is in the list (R22); a request WAITING on the other port is answered ABORTED (R183);
all else stands. Where the selected port leaves ALIGNED by LOS_n, the monitor enters FREEWHEEL as R25 has it,
its next start measured from the last one and its runs at 0, against the list of R186 that has it stand
(DEDUCED, log 12). -/
def Obligations.DeviceResetEmptiesTables : Prop :=
  ∀ (s : State) (x : Execution), s.handed .deviceReset x →
    ∃ t : State, exec .deviceReset s = .next (t.answering x ⟨.ok, []⟩) ∧
      (∀ id, t.records.get id = none) ∧ (∀ y : Triple, t.slotMap.get y.key = none) ∧
      (∀ n slot, t.selection n slot = .idle) ∧ (∀ k, t.contexts.get k = none) ∧ t.pendingSet = [] ∧
      (∀ n : PortNo,
        t.ports[n].config = s.ports[n].config ∧ t.ports[n].los = s.ports[n].los ∧
        t.ports[n].txSymbol = s.ports[n].txSymbol ∧ t.ports[n].txPayload = s.ports[n].txPayload ∧
        t.ports[n].framer.erroredCount = 0 ∧ t.ports[n].slip.slips = 0 ∧
        t.ports[n].maint.loop = .off ∧ t.ports[n].maint.loopTimer = 0 ∧
        t.ports[n].maint.burstLeft = 0 ∧ t.ports[n].maint.runSym = none ∧
        t.ports[n].maint.runLength = 0 ∧ t.ports[n].maint.recognized = false ∧
        t.ports[n].maint.absence = 0 ∧ t.ports[n].maint.farAlarm = false ∧
        t.ports[n].maint.lastCode = none ∧
        (s.ports[n].maint.loop ≠ .inwardHost → t.ports[n] = { s.ports[n] with
          framer := { s.ports[n].framer with erroredCount := 0 },
          slip := { s.ports[n].slip with slips := 0 }, maint := t.ports[n].maint }) ∧
        (s.ports[n].maint.loop = .inwardHost → s.ports[n].config.enable = true →
          (s.ports[n].los = true → t.ports[n].framer.state = .search ∧
            t.ports[n].defects = { s.ports[n].defects with
              sigLost := true, unframed := s.ports[n].defects.unframed || s.ports[n].aligned }) ∧
          (s.ports[n].los = false → t.ports[n] = { s.ports[n] with
            framer := { s.ports[n].framer with erroredCount := 0 },
            slip := { s.ports[n].slip with slips := 0 }, maint := t.ports[n].maint,
            defects := { s.ports[n].defects with sigLost := false } }) ∧
          (t.ports[n].sourceDefect ≠ s.ports[n].sourceDefect →
            ∃ e ∈ t.attention, e.subject = .port n ∧ e.summary.portDefect = true))) ∧
      (∀ e ∈ t.attention, ∃ n : PortNo, s.ports[n].maint.loop = .inwardHost ∧
        e = ⟨.port n, ⟨false, false, false, true, false, false, false⟩⟩) ∧
      (t.attention.Pairwise fun a b => ∀ n m : PortNo, a.subject = .port n → b.subject = .port m →
        n < m) ∧
      t.mport x.port = s.mport x.port ∧
      (∀ p, p ≠ x.port →
        ((s.mport p).txn ≠ .waiting → t.mport p = s.mport p) ∧
        ((s.mport p).txn = .waiting → t.mport p = { s.mport p with
          txn := .answered, request := [],
          response := [(s.mport p).request.getD 0 0, (s.mport p).request.getD 1 0, 0x0B, 0] })) ∧
      t.ref.selection = s.ref.selection ∧
      ((∀ n, s.ref.selection = .port n → t.ports[n].aligned = s.ports[n].aligned) → t.ref = s.ref) ∧
      (∀ n, s.ref.selection = .port n → s.ports[n].aligned = true → t.ports[n].aligned = false →
        t.ref = { s.ref with state := .freewheel, point := s.ref.lastStart, windowOpen := false,
                             missed := 0, good := 0, lastMark := none }) ∧
      t = { s with records := t.records, slotMap := t.slotMap, selections := t.selections,
                   contexts := t.contexts, attention := t.attention, ports := t.ports, ref := t.ref,
                   portM := t.portM, portS := t.portS }

/-! ### Management ports, arbiter and executor -/

/-- A WRITE_REQUEST (R171 to R175) reaches port M, or port S by its own slave address. In IDLE and
ANSWERED it is taken: LOADING, an old response discarded, the bytes of the declared frame stored and the
others ignored. In WAITING and EXECUTING it is refused: REFUSED is set and nothing is stored. Bits are shifted in
most significant first, and those of an unfinished byte are kept apart (R171). Port M sends a status copy for
each byte that begins, as it stands then (R171, R177), and port S acknowledges its address, the operation byte
and each data byte, those of a refused write too, and no other address (R172, R175). At its end a complete frame
waits and an incomplete one is discarded, the port IDLE. While RST is low no bus takes one, and one running as RST
rises is not taken (R184). An SPI transaction's first byte is the operation byte: 0x01, 0x02 and 0x03 make the
commands of their operations, any other value, or no whole byte, none. Port M's data out is at high impedance
while CS_n is high or RST low, else 0x00 with the operation byte, then the bits of the bytes begun, or 0x00 to
the end (R171, R184). The model's choices: a write on a busy bus, more bits of a write that does not run, and an
end with none running change nothing (log 1); one transaction can be given in several commands, a status read
ends with READ_RESPONSE_END, and a transaction not taken leaves data out at high impedance (log 11). -/
def Obligations.RequestIsWrittenAndWaits : Prop :=
  (∀ (s : State) (via : Via) (p : MPortId) (bits rest : List Bool) (bytes : List Byte),
    (via = .spi ∧ p = .m) ∨ (via = .i2c (0x5C + s.straps.setWidth 7) ∧ p = .s) → rest.length < 8 →
    (bits = bytes.flatMap (fun b => (List.range 8).map fun i => b.getLsbD (7 - i)) ++ rest →
      (s.rst = true ∨ (∃ b l, (s.mport p).bus = .writing b l) ∨ (∃ l k, (s.mport p).bus = .reading l k) ∨
          (s.mport p).bus = .missed →
        exec (.writeRequest via (.begins bits)) s = .next s) ∧
      (s.rst = false → (s.mport p).bus = .free ∨ (∃ k, (s.mport p).bus = .status k) →
        ∃ t, exec (.writeRequest via (.begins bits)) s = .next t ∧
        t = { s with portM := t.portM, portS := t.portS, lastOp := t.lastOp, acks := t.acks } ∧
        (p = .m → t.portS = s.portS ∧ t.lastOp = s.lastOp ∧ t.acks = s.acks ∧
          t.portM.sent =
            List.replicate (bytes.length + if rest = [] then 0 else 1) (t.statusByte .m)) ∧
        (p = .s → t.portM = s.portM ∧ t.lastOp = .writeRequest ∧ t.portS.sent = [] ∧
          t.acks = 2 + bytes.length) ∧
        ((s.mport p).txn = .idle ∨ (s.mport p).txn = .answered →
          (t.mport p).txn = .loading ∧ (t.mport p).response = [] ∧
          (t.mport p).refused = (s.mport p).refused ∧ (t.mport p).bus = .writing true rest ∧
          (bytes.length < 3 → (t.mport p).request = bytes) ∧
          (∀ code tag len data, bytes = code :: tag :: len :: data → (t.mport p).request =
            code :: tag :: len :: data.take (if len.toNat ≤ 29 then len.toNat else 0))) ∧
        ((s.mport p).txn = .waiting ∨ (s.mport p).txn = .executing →
          (t.mport p).txn = (s.mport p).txn ∧ (t.mport p).request = (s.mport p).request ∧
          (t.mport p).response = (s.mport p).response ∧ (t.mport p).refused = true ∧
          (t.mport p).bus = .writing false rest))) ∧
    ((∀ b l, (s.mport p).bus ≠ .writing b l) → exec (.writeRequest via (.further bits)) s = .next s) ∧
    (∀ taken shift, (s.mport p).bus = .writing taken shift →
      shift ++ bits = bytes.flatMap (fun b => (List.range 8).map fun i => b.getLsbD (7 - i)) ++ rest →
      ∃ t, exec (.writeRequest via (.further bits)) s = .next t ∧
      t = { s with portM := t.portM, portS := t.portS, acks := t.acks } ∧
      (∀ o, o ≠ p → t.mport o = s.mport o) ∧
      t.mport p = { s.mport p with
        request := (t.mport p).request, sent := (t.mport p).sent, bus := .writing taken rest } ∧
      (p = .m → t.acks = s.acks ∧ t.portM.sent = s.portM.sent ++ List.replicate
        ((shift.length + bits.length + 7) / 8 - (shift.length + 7) / 8) (s.statusByte .m)) ∧
      (p = .s → t.portS.sent = s.portS.sent ∧ t.acks = s.acks + bytes.length) ∧
      (taken = false → (t.mport p).request = (s.mport p).request) ∧
      (taken = true → ((s.mport p).request ++ bytes).length < 3 →
        (t.mport p).request = (s.mport p).request ++ bytes) ∧
      (taken = true → ∀ code tag len data, (s.mport p).request ++ bytes = code :: tag :: len :: data →
        (t.mport p).request =
          code :: tag :: len :: data.take (if len.toNat ≤ 29 then len.toNat else 0)))) ∧
  (∀ (s : State) (a : BitVec 7) (bits : List Bool),
    (s.acknowledges a = true ↔ s.rst = false ∧ (s.portS.bus = .free ∨ ∃ k, s.portS.bus = .status k) ∧
      a = 0x5C + s.straps.setWidth 7) ∧
    (a ≠ 0x5C + s.straps.setWidth 7 →
      exec (.writeRequest (.i2c a) (.further bits)) s = .next s ∧
      (s.rst = true ∨ (∃ b l, s.portS.bus = .writing b l) ∨ (∃ l k, s.portS.bus = .reading l k) ∨
          s.portS.bus = .missed → exec (.writeRequest (.i2c a) (.begins bits)) s = .next s) ∧
      (s.rst = false → s.portS.bus = .free ∨ (∃ k, s.portS.bus = .status k) →
        exec (.writeRequest (.i2c a) (.begins bits)) s =
          .next { s with portS := { s.portS with bus := .free, sent := [] }, acks := 0 }))) ∧
  (∀ (s : State) (p : MPortId), ∃ t, exec (.writeTransactionEnd p) s = .next t ∧
    t = { s with portM := t.portM, portS := t.portS } ∧
    (∀ o, o ≠ p → t.mport o = s.mport o) ∧
    ((∃ shift, (s.mport p).bus = .writing true shift) →
      (∀ code tag len rest, (s.mport p).request = code :: tag :: len :: rest →
        (29 < len.toNat ∨ len.toNat ≤ rest.length →
          t.mport p = { s.mport p with txn := .waiting, bus := .free }) ∧
        (len.toNat ≤ 29 → rest.length < len.toNat →
          t.mport p = { s.mport p with txn := .idle, request := [], bus := .free })) ∧
      ((s.mport p).request.length < 3 →
        t.mport p = { s.mport p with txn := .idle, request := [], bus := .free })) ∧
    ((∃ shift, (s.mport p).bus = .writing false shift) ∨ (s.mport p).bus = .missed →
      t.mport p = { s.mport p with bus := .free }) ∧
    ((s.mport p).bus = .free ∨ (∃ k, (s.mport p).bus = .status k) ∨
      (∃ live k, (s.mport p).bus = .reading live k) → t = s)) ∧
  (∀ bits : List Bool, bits.length < 8 → spiTransaction bits = []) ∧
  (∀ (op : Byte) (rest : List Byte) (unfinished after : List Bool), unfinished.length < 8 →
    after = rest.flatMap (fun b => (List.range 8).map fun i => b.getLsbD (7 - i)) ++ unfinished →
    spiTransaction ((List.range 8).map (fun i => op.getLsbD (7 - i)) ++ after) =
      (if op = 0x01 then [.writeRequest .spi (.begins after), .writeTransactionEnd .m]
      else if op = 0x02 then [.readResponse (.begins after.length), .readResponseEnd .m]
      else if op = 0x03 then [.readStatus (.begins after.length), .readResponseEnd .m] else [])) ∧
  (∀ (s : State) (bits : List Bool), s.spiDataOut none = none ∧
    (s.rst = true ∨ s.portM.bus = .missed → s.spiDataOut (some bits) = none) ∧
    (s.rst = false → s.portM.bus ≠ .missed →
      (bits.length < 8 → s.spiDataOut (some bits) = some (List.replicate bits.length false)) ∧
      ∀ (op : Byte) (after : List Bool), bits = (List.range 8).map (fun i => op.getLsbD (7 - i)) ++ after →
        s.spiDataOut (some bits) = some
          (if op = 0x01 ∨ op = 0x02 ∨ op = 0x03 then List.replicate 8 false ++
            (s.portM.sent.flatMap fun b => (List.range 8).map fun i => b.getLsbD (7 - i)).take after.length
          else List.replicate bits.length false))) ∧
  ∀ (a : BitVec 7) (op : Byte) (rest : List Byte), i2cTransaction a [] = [.lastOperationSet a []] ∧
    i2cTransaction a (op :: rest) =
      (if op = 0x01 then
        [.writeRequest (.i2c a) (.begins (rest.flatMap fun b => (List.range 8).map fun i =>
          b.getLsbD (7 - i))), .writeTransactionEnd .s]
      else [.lastOperationSet a (op :: rest)])

/-- Reads (R171, R172, R176, R177). A read of the response sends the frame and then zeros in ANSWERED, and
zeros otherwise, bit by bit; at its end a response of which every byte was sent whole leaves the buffer, the port
IDLE, and one sent in part is kept. A status read sends status bytes, the first with REFUSED as it stood and the
others with REFUSED clear, and clears it with the first bit of the first. An I2C read follows the last operation,
which a write of an operation byte sets, a write of another value or of none leaving it (one of 0x01 is the
model's reading of a row the table gives WRITE_REQUEST, log 18). Port S acknowledges its address and every data
byte written, and no other address (R172). While RST is low no bus takes one, and one running as RST rises is not
taken (R184). The model's choices: a read or an operation byte on a busy bus, more bits of a read that does not
run, and an end with none running change nothing (log 1); the bytes a port begins to send stand in `sent`, each
command's taken as they stand at it, one transaction can be given in several commands, so that a change between
two copies shows in the later one, and READ_RESPONSE_END ends a status read too (log 11). -/
def Obligations.ReadsSendResponseOrStatus : Prop :=
  (∀ (s : State) (p : MPortId), s.statusByte p =
    (match (s.mport p).txn with
      | .idle => 0 | .loading => 1 | .waiting => 2 | .executing => 3 | .answered => 4) +
    (if (s.mport p).refused then 8 else 0) + (if s.attention = [] then 0 else 16) +
    (if s.ref.state = .freewheel then 32 else 0)) ∧
  (∀ (x : MPort) (live : Bool) (first count : Nat), (x.readBytes live first count).length = count ∧
    (∀ k < count, (x.readBytes live first count)[k]? =
      some (if live = true ∧ first + k < x.response.length then x.response.getD (first + k) 0 else 0)) ∧
    ((live = true ↔ x.txn = .answered) → x.read count =
      { x with bus := .reading live count, sent := x.readBytes live 0 ((count + 7) / 8) })) ∧
  (∀ (s : State) (p : MPortId) (count : Nat),
    s.statusCopies p count = s.setMport p { s.mport p with
      sent := (s.mport p).sent ++ List.replicate count (s.statusByte p) } ∧
    s.statusRead p count = s.setMport p { s.mport p with
      refused := (s.mport p).refused && decide (count = 0),
      sent := (s.mport p).sent ++ (List.range count).map fun k => if k = 0 then s.statusByte p else
        (s.setMport p { s.mport p with refused := false }).statusByte p }) ∧
  (∀ (s : State) (p : MPortId) (clears : Bool) (count : Nat),
    (s.rst = true ∨ (∃ b l, (s.mport p).bus = .writing b l) ∨ (∃ l k, (s.mport p).bus = .reading l k) ∨
        (s.mport p).bus = .missed →
      s.readPart p (.begins count) = s ∧ s.statusPart p clears (.begins count) = s) ∧
    (∀ y, s.rst = false → (s.mport p).bus = .free ∨ (∃ k, (s.mport p).bus = .status k) →
      y = s.setMport p { s.mport p with bus := .status count, sent := [] } →
      s.readPart p (.begins count) = s.setMport p ((s.mport p).read count) ∧
      s.statusPart p clears (.begins count) =
        if clears then y.statusRead p ((count + 7) / 8) else y.statusCopies p ((count + 7) / 8)) ∧
    (∀ live k, (s.mport p).bus = .reading live k → s.readPart p (.further count) =
      s.setMport p { s.mport p with
        bus := .reading live (k + count),
        sent := (s.mport p).sent ++
          (s.mport p).readBytes live ((k + 7) / 8) ((k + count + 7) / 8 - (k + 7) / 8) }) ∧
    ((∀ live k, (s.mport p).bus ≠ .reading live k) → s.readPart p (.further count) = s) ∧
    (∀ k y begun, (s.mport p).bus = .status k → begun = (k + count + 7) / 8 - (k + 7) / 8 →
      y = s.setMport p { s.mport p with bus := .status (k + count) } →
      s.statusPart p clears (.further count) =
        if clears then y.statusRead p begun else y.statusCopies p begun) ∧
    ((∀ k, (s.mport p).bus ≠ .status k) → s.statusPart p clears (.further count) = s)) ∧
  (∀ (s : State) (part : BusPart Nat),
    exec (.readResponse part) s = .next (s.readPart .m part) ∧
    exec (.readStatus part) s = .next (s.statusPart .m true part)) ∧
  (∀ (s : State) (a : BitVec 7) (count : Nat) (data rest : List Byte) (op : Byte),
    (s.rst = true ∨ (∃ b l, s.portS.bus = .writing b l) ∨ (∃ l k, s.portS.bus = .reading l k) ∨
        s.portS.bus = .missed →
      exec (.i2cRead a (.begins count)) s = .next s ∧ exec (.lastOperationSet a data) s = .next s) ∧
    (s.rst = false → s.portS.bus = .free ∨ (∃ k, s.portS.bus = .status k) →
      (a ≠ 0x5C + s.straps.setWidth 7 → ∀ t,
        t = { s with portS := { s.portS with bus := .free, sent := [] }, acks := 0 } →
        exec (.i2cRead a (.begins count)) s = .next t ∧ exec (.lastOperationSet a data) s = .next t) ∧
      (a = 0x5C + s.straps.setWidth 7 →
        (∀ y, y = { s with acks := 1 } → exec (.i2cRead a (.begins count)) s = .next (match s.lastOp with
          | .readResponse => y.readPart .s (.begins count)
          | .readStatus => y.statusPart .s true (.begins count)
          | .writeRequest => y.statusPart .s false (.begins count))) ∧
        exec (.lastOperationSet a []) s =
          .next { s with portS := { s.portS with bus := .free, sent := [] }, acks := 1 } ∧
        (op ≠ 0x01 → exec (.lastOperationSet a (op :: rest)) s = .next { s with
          portS := { s.portS with bus := .free, sent := [] }, acks := 2 + rest.length,
          lastOp := if op = 0x02 then .readResponse else if op = 0x03 then .readStatus else s.lastOp }) ∧
        (op = 0x01 → exec (.lastOperationSet a (op :: rest)) s =
          exec (.writeRequest (.i2c a) (.begins (rest.flatMap fun b => (List.range 8).map fun i =>
            b.getLsbD (7 - i)))) s))) ∧
    (a ≠ 0x5C + s.straps.setWidth 7 → exec (.i2cRead a (.further count)) s = .next s) ∧
    (a = 0x5C + s.straps.setWidth 7 →
      exec (.i2cRead a (.further count)) s = .next (match s.lastOp with
        | .readResponse => s.readPart .s (.further count)
        | .readStatus => s.statusPart .s true (.further count)
        | .writeRequest => s.statusPart .s false (.further count)))) ∧
  ∀ (s : State) (p : MPortId), ∃ t, exec (.readResponseEnd p) s = .next t ∧
    t = { s with portM := t.portM, portS := t.portS } ∧ (∀ o, o ≠ p → t.mport o = s.mport o) ∧
    (∀ k, (s.mport p).bus = .reading true k →
      ((s.mport p).response.length ≤ k / 8 →
        t.mport p = { s.mport p with txn := .idle, response := [], bus := .free }) ∧
      (k / 8 < (s.mport p).response.length → t.mport p = { s.mport p with bus := .free })) ∧
    ((∃ k, (s.mport p).bus = .reading false k) ∨ (∃ k, (s.mport p).bus = .status k) ∨
      (s.mport p).bus = .missed → t.mport p = { s.mport p with bus := .free }) ∧
    ((s.mport p).bus = .free ∨ (∃ b l, (s.mport p).bus = .writing b l) → t = s)

/-- The arbiter hands on a waiting request while the executor has none, the port that is not the last served
first (R178); the frame is parsed, and one that spells no request has its BAD_REQUEST (R180). The answer,
once there, is placed as the response: code, tag, status, length and data; the port is ANSWERED and the
executor is free (R179, R181). That the check of the frame and the emptying of the request buffer are made
at the hand-over is DEDUCED (log 15), and that RESPONSE_PLACED with no answer, like HAND_OVER with nothing
to hand on, changes nothing is the model's choice (log 1). -/
def Obligations.RequestsAreHandedOnInTurnAndAnswered : Prop :=
  (∀ s : State,
    (s.executor.isSome = true ∨ (s.portM.txn ≠ .waiting ∧ s.portS.txn ≠ .waiting) →
      exec .handOver s = .next s) ∧
    ∀ p : MPortId, s.executor = none → (s.mport p).txn = .waiting →
      s.lastServed ≠ p ∨ (∀ o, o ≠ p → (s.mport o).txn ≠ .waiting) →
      ∃ t x, exec .handOver s = .next t ∧ t.executor = some x ∧
        t.mport p = { s.mport p with txn := .executing, request := [] } ∧
        (∀ o, o ≠ p → t.mport o = s.mport o) ∧ t.lastServed = p ∧
        x.port = p ∧ x.code = (s.mport p).request.getD 0 0 ∧ x.tag = (s.mport p).request.getD 1 0 ∧
        x.request = parseFrame (s.mport p).request ∧
        (∀ i, parseFrame (s.mport p).request = some i → x.answer = none) ∧
        (parseFrame (s.mport p).request = none → x.answer = some ⟨.badRequest, []⟩) ∧
        t = { s with portM := t.portM, portS := t.portS, executor := t.executor,
                     lastServed := t.lastServed }) ∧
  ∀ s : State,
    (s.executor = none → exec .responsePlaced s = .next s) ∧
    (∀ x, s.executor = some x → x.answer = none → exec .responsePlaced s = .next s) ∧
    ∀ x a, s.executor = some x → x.answer = some a →
      ∃ t, exec .responsePlaced s = .next t ∧
        t.mport x.port = { s.mport x.port with
          txn := .answered,
          response := [x.code, x.tag, a.status.number, BitVec.ofNat 8 a.data.length] ++ a.data } ∧
        (∀ o, o ≠ x.port → t.mport o = s.mport o) ∧
        t = { s with portM := t.portM, portS := t.portS, executor := none }

/-- The request frames: what the parser reads from an encoded frame is the request that was encoded,
every operand at every value; an encoded frame is complete and at most 32 bytes; and what the parser reads
from any frame of at most 32 bytes is well formed (R173, R188, R189). A complete frame is read exactly where
its declared length is 29 at most, its code is one of the table, and its parameters are as many bytes as the
code's layout gives by the indicators and counts in them, taken as written: any other is a BAD_REQUEST (R180).
What is read has the frame's code and every parameter byte, the bits not assigned apart (R188). -/
def Obligations.RequestFramesRoundTrip : Prop :=
  (∀ (i : Instr) (tag : Byte) (frame : List Byte), i.wf = true → encodeFrame tag i = some frame →
    parseFrame frame = some i ∧ frame.length ≤ 32 ∧ frameComplete frame = true ∧
    frame.getD 1 0 = tag) ∧
  (∀ (i : Instr) (frame : List Byte), frame.length ≤ 32 → parseFrame frame = some i → i.wf = true) ∧
  (∀ frame : List Byte, frame.length < 3 → parseFrame frame = none) ∧
  ∀ (code tag len : Byte) (params : List Byte),
    ((parseFrame (code :: tag :: len :: params)).isSome = true ↔ len.toNat ≤ 29 ∧
      (match code.toNat with
      | 0x10 => params.length = 10 + 2 * (params.getD 5 0).toNat +
          ((params.getD 2 0).getLsbD 0).toNat + 2 * ((params.getD 2 0).getLsbD 1).toNat
      | 0x11 => params.length = 4 + 4 * ((params.getD 3 0).getLsbD 0).toNat +
          ((params.getD 3 0).getLsbD 1).toNat + ((params.getD 3 0).getLsbD 2).toNat +
          ((params.getD 3 0).getLsbD 3).toNat + 2 * ((params.getD 3 0).getLsbD 4).toNat +
          ((params.getD 3 0).getLsbD 5).toNat
      | 0x12 | 0x13 | 0x14 | 0x16 | 0x21 => params.length = 3
      | 0x15 | 0x17 | 0x33 | 0x35 => params.length = 2
      | 0x20 => params.length = 6 ∨ params.length = 7
      | 0x22 | 0x34 => params.length = 4
      | 0x30 => params.length = 2 + ((params.getD 1 0).getLsbD 0).toNat +
          ((params.getD 1 0).getLsbD 1).toNat + ((params.getD 1 0).getLsbD 2).toNat +
          ((params.getD 1 0).getLsbD 3).toNat + ((params.getD 1 0).getLsbD 4).toNat +
          ((params.getD 1 0).getLsbD 5).toNat
      | 0x31 | 0x32 => params.length = 1
      | 0x41 => params.length = 1 + ((params.getD 0 0).getLsbD 0).toNat +
          ((params.getD 0 0).getLsbD 1).toNat
      | 0x40 | 0x50 | 0x5A => params.length = 0
      | _ => False)) ∧
    ∀ i, parseFrame (code :: tag :: len :: params) = some i → ∃ b, encodeParams i = some (code, b) ∧
      b.length = params.length ∧ ∀ k (v : Byte), params[k]? = some v → b[k]? = some
        (if (code = 0x10 ∧ k = 2) ∨ (code = 0x41 ∧ k = 0) then v &&& 0x03
        else if (code = 0x11 ∧ k = 3) ∨ (code = 0x30 ∧ k = 1) then v &&& 0x3F else v)

/-! ### Invariants -/

/-- Every sane state of the line ports, slip buffers and maintenance units stays sane at every step. -/
def Obligations.StepKeepsPortsSane : Prop := StepKeeps State.PortsInv

/-- A sane reference monitor stays sane at every step. -/
def Obligations.StepKeepsReferenceSane : Prop := StepKeeps State.RefInv

/-- Records, slot map, selections and bound contexts name each other in every state that a step reaches
from one in which they do (R58, R92, R125). -/
def Obligations.StepKeepsTablesConsistent : Prop := StepKeeps fun s => s.MapInv ∧ s.BindInv

/-- Every context keeps the selection its request state makes (R130), and the attention list never holds
a subject twice (R162), at every step. -/
def Obligations.StepKeepsContextsAndListSane : Prop := StepKeeps fun s => s.ContextsSane ∧ s.ListInv

/-- The management ports and the executor stay sane at every step (R170, R173, R181). -/
def Obligations.StepKeepsBusSane : Prop := StepKeeps State.BusInv

/-- The state after reset is sane in every part. -/
def Obligations.ResetIsSane : Prop :=
  State.reset.PortsInv ∧ State.reset.RefInv ∧ State.reset.MapInv ∧ State.reset.BindInv ∧
    State.reset.ContextsSane ∧ State.reset.ListInv ∧ State.reset.BusInv
end

