-- ==== Sys2Proof/Laws/State.lean ====
section
/-! SUPPORT. One lemma per field of State and shared update: what the update leaves as it was, and
what it writes. -/

namespace Sys2Proof.Machine

/-! ### post -/

@[simp] theorem rst_post (s : State) (x : Subject) (c : Change) : (s.post x c).rst = s.rst := rfl
@[simp] theorem straps_post (s : State) (x : Subject) (c : Change) : (s.post x c).straps = s.straps := rfl
@[simp] theorem ports_post (s : State) (x : Subject) (c : Change) : (s.post x c).ports = s.ports := rfl
@[simp] theorem ref_post (s : State) (x : Subject) (c : Change) : (s.post x c).ref = s.ref := rfl
@[simp] theorem interval_post (s : State) (x : Subject) (c : Change) : (s.post x c).interval = s.interval := rfl
@[simp] theorem slipPeriod_post (s : State) (x : Subject) (c : Change) : (s.post x c).slipPeriod = s.slipPeriod := rfl
@[simp] theorem records_post (s : State) (x : Subject) (c : Change) : (s.post x c).records = s.records := rfl
@[simp] theorem slotMap_post (s : State) (x : Subject) (c : Change) : (s.post x c).slotMap = s.slotMap := rfl
@[simp] theorem selections_post (s : State) (x : Subject) (c : Change) : (s.post x c).selections = s.selections := rfl
@[simp] theorem contexts_post (s : State) (x : Subject) (c : Change) : (s.post x c).contexts = s.contexts := rfl
@[simp] theorem enableM_post (s : State) (x : Subject) (c : Change) : (s.post x c).enableM = s.enableM := rfl
@[simp] theorem enableS_post (s : State) (x : Subject) (c : Change) : (s.post x c).enableS = s.enableS := rfl
@[simp] theorem portM_post (s : State) (x : Subject) (c : Change) : (s.post x c).portM = s.portM := rfl
@[simp] theorem portS_post (s : State) (x : Subject) (c : Change) : (s.post x c).portS = s.portS := rfl
@[simp] theorem lastOp_post (s : State) (x : Subject) (c : Change) : (s.post x c).lastOp = s.lastOp := rfl
@[simp] theorem acks_post (s : State) (x : Subject) (c : Change) : (s.post x c).acks = s.acks := rfl
@[simp] theorem executor_post (s : State) (x : Subject) (c : Change) : (s.post x c).executor = s.executor := rfl
@[simp] theorem lastServed_post (s : State) (x : Subject) (c : Change) : (s.post x c).lastServed = s.lastServed := rfl
@[simp] theorem pending_post (s : State) (x : Subject) (c : Change) : (s.post x c).pending = s.pending := rfl

/-! ### postIf -/

@[simp] theorem rst_postIf (s : State) (b : Bool) (x : Subject) (c : Change) : (s.postIf b x c).rst = s.rst := by cases b <;> rfl
@[simp] theorem straps_postIf (s : State) (b : Bool) (x : Subject) (c : Change) : (s.postIf b x c).straps = s.straps := by cases b <;> rfl
@[simp] theorem ports_postIf (s : State) (b : Bool) (x : Subject) (c : Change) : (s.postIf b x c).ports = s.ports := by cases b <;> rfl
@[simp] theorem ref_postIf (s : State) (b : Bool) (x : Subject) (c : Change) : (s.postIf b x c).ref = s.ref := by cases b <;> rfl
@[simp] theorem interval_postIf (s : State) (b : Bool) (x : Subject) (c : Change) : (s.postIf b x c).interval = s.interval := by cases b <;> rfl
@[simp] theorem slipPeriod_postIf (s : State) (b : Bool) (x : Subject) (c : Change) : (s.postIf b x c).slipPeriod = s.slipPeriod := by cases b <;> rfl
@[simp] theorem records_postIf (s : State) (b : Bool) (x : Subject) (c : Change) : (s.postIf b x c).records = s.records := by cases b <;> rfl
@[simp] theorem slotMap_postIf (s : State) (b : Bool) (x : Subject) (c : Change) : (s.postIf b x c).slotMap = s.slotMap := by cases b <;> rfl
@[simp] theorem selections_postIf (s : State) (b : Bool) (x : Subject) (c : Change) : (s.postIf b x c).selections = s.selections := by cases b <;> rfl
@[simp] theorem contexts_postIf (s : State) (b : Bool) (x : Subject) (c : Change) : (s.postIf b x c).contexts = s.contexts := by cases b <;> rfl
@[simp] theorem enableM_postIf (s : State) (b : Bool) (x : Subject) (c : Change) : (s.postIf b x c).enableM = s.enableM := by cases b <;> rfl
@[simp] theorem enableS_postIf (s : State) (b : Bool) (x : Subject) (c : Change) : (s.postIf b x c).enableS = s.enableS := by cases b <;> rfl
@[simp] theorem portM_postIf (s : State) (b : Bool) (x : Subject) (c : Change) : (s.postIf b x c).portM = s.portM := by cases b <;> rfl
@[simp] theorem portS_postIf (s : State) (b : Bool) (x : Subject) (c : Change) : (s.postIf b x c).portS = s.portS := by cases b <;> rfl
@[simp] theorem lastOp_postIf (s : State) (b : Bool) (x : Subject) (c : Change) : (s.postIf b x c).lastOp = s.lastOp := by cases b <;> rfl
@[simp] theorem acks_postIf (s : State) (b : Bool) (x : Subject) (c : Change) : (s.postIf b x c).acks = s.acks := by cases b <;> rfl
@[simp] theorem executor_postIf (s : State) (b : Bool) (x : Subject) (c : Change) : (s.postIf b x c).executor = s.executor := by cases b <;> rfl
@[simp] theorem lastServed_postIf (s : State) (b : Bool) (x : Subject) (c : Change) : (s.postIf b x c).lastServed = s.lastServed := by cases b <;> rfl
@[simp] theorem pending_postIf (s : State) (b : Bool) (x : Subject) (c : Change) : (s.postIf b x c).pending = s.pending := by cases b <;> rfl

/-! ### setRecord -/

@[simp] theorem rst_setRecord (s : State) (id : Nat) (r : Record) : (s.setRecord id r).rst = s.rst := rfl
@[simp] theorem straps_setRecord (s : State) (id : Nat) (r : Record) : (s.setRecord id r).straps = s.straps := rfl
@[simp] theorem ports_setRecord (s : State) (id : Nat) (r : Record) : (s.setRecord id r).ports = s.ports := rfl
@[simp] theorem ref_setRecord (s : State) (id : Nat) (r : Record) : (s.setRecord id r).ref = s.ref := rfl
@[simp] theorem interval_setRecord (s : State) (id : Nat) (r : Record) : (s.setRecord id r).interval = s.interval := rfl
@[simp] theorem slipPeriod_setRecord (s : State) (id : Nat) (r : Record) : (s.setRecord id r).slipPeriod = s.slipPeriod := rfl
@[simp] theorem slotMap_setRecord (s : State) (id : Nat) (r : Record) : (s.setRecord id r).slotMap = s.slotMap := rfl
@[simp] theorem selections_setRecord (s : State) (id : Nat) (r : Record) : (s.setRecord id r).selections = s.selections := rfl
@[simp] theorem contexts_setRecord (s : State) (id : Nat) (r : Record) : (s.setRecord id r).contexts = s.contexts := rfl
@[simp] theorem attention_setRecord (s : State) (id : Nat) (r : Record) : (s.setRecord id r).attention = s.attention := rfl
@[simp] theorem enableM_setRecord (s : State) (id : Nat) (r : Record) : (s.setRecord id r).enableM = s.enableM := rfl
@[simp] theorem enableS_setRecord (s : State) (id : Nat) (r : Record) : (s.setRecord id r).enableS = s.enableS := rfl
@[simp] theorem portM_setRecord (s : State) (id : Nat) (r : Record) : (s.setRecord id r).portM = s.portM := rfl
@[simp] theorem portS_setRecord (s : State) (id : Nat) (r : Record) : (s.setRecord id r).portS = s.portS := rfl
@[simp] theorem lastOp_setRecord (s : State) (id : Nat) (r : Record) : (s.setRecord id r).lastOp = s.lastOp := rfl
@[simp] theorem acks_setRecord (s : State) (id : Nat) (r : Record) : (s.setRecord id r).acks = s.acks := rfl
@[simp] theorem executor_setRecord (s : State) (id : Nat) (r : Record) : (s.setRecord id r).executor = s.executor := rfl
@[simp] theorem lastServed_setRecord (s : State) (id : Nat) (r : Record) : (s.setRecord id r).lastServed = s.lastServed := rfl
@[simp] theorem pending_setRecord (s : State) (id : Nat) (r : Record) : (s.setRecord id r).pending = s.pending := rfl

/-! ### reserve -/

@[simp] theorem rst_reserve (s : State) (ts : List Triple) (id : Nat) : (s.reserve ts id).rst = s.rst := rfl
@[simp] theorem straps_reserve (s : State) (ts : List Triple) (id : Nat) : (s.reserve ts id).straps = s.straps := rfl
@[simp] theorem ports_reserve (s : State) (ts : List Triple) (id : Nat) : (s.reserve ts id).ports = s.ports := rfl
@[simp] theorem ref_reserve (s : State) (ts : List Triple) (id : Nat) : (s.reserve ts id).ref = s.ref := rfl
@[simp] theorem interval_reserve (s : State) (ts : List Triple) (id : Nat) : (s.reserve ts id).interval = s.interval := rfl
@[simp] theorem slipPeriod_reserve (s : State) (ts : List Triple) (id : Nat) : (s.reserve ts id).slipPeriod = s.slipPeriod := rfl
@[simp] theorem records_reserve (s : State) (ts : List Triple) (id : Nat) : (s.reserve ts id).records = s.records := rfl
@[simp] theorem selections_reserve (s : State) (ts : List Triple) (id : Nat) : (s.reserve ts id).selections = s.selections := rfl
@[simp] theorem contexts_reserve (s : State) (ts : List Triple) (id : Nat) : (s.reserve ts id).contexts = s.contexts := rfl
@[simp] theorem attention_reserve (s : State) (ts : List Triple) (id : Nat) : (s.reserve ts id).attention = s.attention := rfl
@[simp] theorem enableM_reserve (s : State) (ts : List Triple) (id : Nat) : (s.reserve ts id).enableM = s.enableM := rfl
@[simp] theorem enableS_reserve (s : State) (ts : List Triple) (id : Nat) : (s.reserve ts id).enableS = s.enableS := rfl
@[simp] theorem portM_reserve (s : State) (ts : List Triple) (id : Nat) : (s.reserve ts id).portM = s.portM := rfl
@[simp] theorem portS_reserve (s : State) (ts : List Triple) (id : Nat) : (s.reserve ts id).portS = s.portS := rfl
@[simp] theorem lastOp_reserve (s : State) (ts : List Triple) (id : Nat) : (s.reserve ts id).lastOp = s.lastOp := rfl
@[simp] theorem acks_reserve (s : State) (ts : List Triple) (id : Nat) : (s.reserve ts id).acks = s.acks := rfl
@[simp] theorem executor_reserve (s : State) (ts : List Triple) (id : Nat) : (s.reserve ts id).executor = s.executor := rfl
@[simp] theorem lastServed_reserve (s : State) (ts : List Triple) (id : Nat) : (s.reserve ts id).lastServed = s.lastServed := rfl
@[simp] theorem pending_reserve (s : State) (ts : List Triple) (id : Nat) : (s.reserve ts id).pending = s.pending := rfl

/-! ### releaseTriples -/

@[simp] theorem rst_releaseTriples (s : State) (ts : List Triple) : (s.releaseTriples ts).rst = s.rst := rfl
@[simp] theorem straps_releaseTriples (s : State) (ts : List Triple) : (s.releaseTriples ts).straps = s.straps := rfl
@[simp] theorem ports_releaseTriples (s : State) (ts : List Triple) : (s.releaseTriples ts).ports = s.ports := rfl
@[simp] theorem ref_releaseTriples (s : State) (ts : List Triple) : (s.releaseTriples ts).ref = s.ref := rfl
@[simp] theorem interval_releaseTriples (s : State) (ts : List Triple) : (s.releaseTriples ts).interval = s.interval := rfl
@[simp] theorem slipPeriod_releaseTriples (s : State) (ts : List Triple) : (s.releaseTriples ts).slipPeriod = s.slipPeriod := rfl
@[simp] theorem records_releaseTriples (s : State) (ts : List Triple) : (s.releaseTriples ts).records = s.records := rfl
@[simp] theorem selections_releaseTriples (s : State) (ts : List Triple) : (s.releaseTriples ts).selections = s.selections := rfl
@[simp] theorem contexts_releaseTriples (s : State) (ts : List Triple) : (s.releaseTriples ts).contexts = s.contexts := rfl
@[simp] theorem attention_releaseTriples (s : State) (ts : List Triple) : (s.releaseTriples ts).attention = s.attention := rfl
@[simp] theorem enableM_releaseTriples (s : State) (ts : List Triple) : (s.releaseTriples ts).enableM = s.enableM := rfl
@[simp] theorem enableS_releaseTriples (s : State) (ts : List Triple) : (s.releaseTriples ts).enableS = s.enableS := rfl
@[simp] theorem portM_releaseTriples (s : State) (ts : List Triple) : (s.releaseTriples ts).portM = s.portM := rfl
@[simp] theorem portS_releaseTriples (s : State) (ts : List Triple) : (s.releaseTriples ts).portS = s.portS := rfl
@[simp] theorem lastOp_releaseTriples (s : State) (ts : List Triple) : (s.releaseTriples ts).lastOp = s.lastOp := rfl
@[simp] theorem acks_releaseTriples (s : State) (ts : List Triple) : (s.releaseTriples ts).acks = s.acks := rfl
@[simp] theorem executor_releaseTriples (s : State) (ts : List Triple) : (s.releaseTriples ts).executor = s.executor := rfl
@[simp] theorem lastServed_releaseTriples (s : State) (ts : List Triple) : (s.releaseTriples ts).lastServed = s.lastServed := rfl
@[simp] theorem pending_releaseTriples (s : State) (ts : List Triple) : (s.releaseTriples ts).pending = s.pending := rfl

/-! ### unbind -/

@[simp] theorem rst_unbind (s : State) (k : Option Nat) : (s.unbind k).rst = s.rst := by cases k <;> rfl
@[simp] theorem straps_unbind (s : State) (k : Option Nat) : (s.unbind k).straps = s.straps := by cases k <;> rfl
@[simp] theorem ports_unbind (s : State) (k : Option Nat) : (s.unbind k).ports = s.ports := by cases k <;> rfl
@[simp] theorem ref_unbind (s : State) (k : Option Nat) : (s.unbind k).ref = s.ref := by cases k <;> rfl
@[simp] theorem interval_unbind (s : State) (k : Option Nat) : (s.unbind k).interval = s.interval := by cases k <;> rfl
@[simp] theorem slipPeriod_unbind (s : State) (k : Option Nat) : (s.unbind k).slipPeriod = s.slipPeriod := by cases k <;> rfl
@[simp] theorem records_unbind (s : State) (k : Option Nat) : (s.unbind k).records = s.records := by cases k <;> rfl
@[simp] theorem slotMap_unbind (s : State) (k : Option Nat) : (s.unbind k).slotMap = s.slotMap := by cases k <;> rfl
@[simp] theorem selections_unbind (s : State) (k : Option Nat) : (s.unbind k).selections = s.selections := by cases k <;> rfl
@[simp] theorem attention_unbind (s : State) (k : Option Nat) : (s.unbind k).attention = s.attention := by cases k <;> rfl
@[simp] theorem enableM_unbind (s : State) (k : Option Nat) : (s.unbind k).enableM = s.enableM := by cases k <;> rfl
@[simp] theorem enableS_unbind (s : State) (k : Option Nat) : (s.unbind k).enableS = s.enableS := by cases k <;> rfl
@[simp] theorem portM_unbind (s : State) (k : Option Nat) : (s.unbind k).portM = s.portM := by cases k <;> rfl
@[simp] theorem portS_unbind (s : State) (k : Option Nat) : (s.unbind k).portS = s.portS := by cases k <;> rfl
@[simp] theorem lastOp_unbind (s : State) (k : Option Nat) : (s.unbind k).lastOp = s.lastOp := by cases k <;> rfl
@[simp] theorem acks_unbind (s : State) (k : Option Nat) : (s.unbind k).acks = s.acks := by cases k <;> rfl
@[simp] theorem executor_unbind (s : State) (k : Option Nat) : (s.unbind k).executor = s.executor := by cases k <;> rfl
@[simp] theorem lastServed_unbind (s : State) (k : Option Nat) : (s.unbind k).lastServed = s.lastServed := by cases k <;> rfl
@[simp] theorem pending_unbind (s : State) (k : Option Nat) : (s.unbind k).pending = s.pending := by cases k <;> rfl

/-! ### freeRecord -/

@[simp] theorem rst_freeRecord (s : State) (id : Nat) (r : Record) : (s.freeRecord id r).rst = s.rst := by unfold State.freeRecord; simp
@[simp] theorem straps_freeRecord (s : State) (id : Nat) (r : Record) : (s.freeRecord id r).straps = s.straps := by unfold State.freeRecord; simp
@[simp] theorem ports_freeRecord (s : State) (id : Nat) (r : Record) : (s.freeRecord id r).ports = s.ports := by unfold State.freeRecord; simp
@[simp] theorem ref_freeRecord (s : State) (id : Nat) (r : Record) : (s.freeRecord id r).ref = s.ref := by unfold State.freeRecord; simp
@[simp] theorem interval_freeRecord (s : State) (id : Nat) (r : Record) : (s.freeRecord id r).interval = s.interval := by unfold State.freeRecord; simp
@[simp] theorem slipPeriod_freeRecord (s : State) (id : Nat) (r : Record) : (s.freeRecord id r).slipPeriod = s.slipPeriod := by unfold State.freeRecord; simp
@[simp] theorem selections_freeRecord (s : State) (id : Nat) (r : Record) : (s.freeRecord id r).selections = s.selections := by unfold State.freeRecord; simp
@[simp] theorem attention_freeRecord (s : State) (id : Nat) (r : Record) : (s.freeRecord id r).attention = s.attention := by unfold State.freeRecord; simp
@[simp] theorem enableM_freeRecord (s : State) (id : Nat) (r : Record) : (s.freeRecord id r).enableM = s.enableM := by unfold State.freeRecord; simp
@[simp] theorem enableS_freeRecord (s : State) (id : Nat) (r : Record) : (s.freeRecord id r).enableS = s.enableS := by unfold State.freeRecord; simp
@[simp] theorem portM_freeRecord (s : State) (id : Nat) (r : Record) : (s.freeRecord id r).portM = s.portM := by unfold State.freeRecord; simp
@[simp] theorem portS_freeRecord (s : State) (id : Nat) (r : Record) : (s.freeRecord id r).portS = s.portS := by unfold State.freeRecord; simp
@[simp] theorem lastOp_freeRecord (s : State) (id : Nat) (r : Record) : (s.freeRecord id r).lastOp = s.lastOp := by unfold State.freeRecord; simp
@[simp] theorem acks_freeRecord (s : State) (id : Nat) (r : Record) : (s.freeRecord id r).acks = s.acks := by unfold State.freeRecord; simp
@[simp] theorem executor_freeRecord (s : State) (id : Nat) (r : Record) : (s.freeRecord id r).executor = s.executor := by unfold State.freeRecord; simp
@[simp] theorem lastServed_freeRecord (s : State) (id : Nat) (r : Record) : (s.freeRecord id r).lastServed = s.lastServed := by unfold State.freeRecord; simp
@[simp] theorem pending_freeRecord (s : State) (id : Nat) (r : Record) : (s.freeRecord id r).pending = s.pending := by unfold State.freeRecord; simp

/-! ### setMport -/

@[simp] theorem rst_setMport (s : State) (p : MPortId) (x : MPort) : (s.setMport p x).rst = s.rst := by cases p <;> rfl
@[simp] theorem straps_setMport (s : State) (p : MPortId) (x : MPort) : (s.setMport p x).straps = s.straps := by cases p <;> rfl
@[simp] theorem ports_setMport (s : State) (p : MPortId) (x : MPort) : (s.setMport p x).ports = s.ports := by cases p <;> rfl
@[simp] theorem ref_setMport (s : State) (p : MPortId) (x : MPort) : (s.setMport p x).ref = s.ref := by cases p <;> rfl
@[simp] theorem interval_setMport (s : State) (p : MPortId) (x : MPort) : (s.setMport p x).interval = s.interval := by cases p <;> rfl
@[simp] theorem slipPeriod_setMport (s : State) (p : MPortId) (x : MPort) : (s.setMport p x).slipPeriod = s.slipPeriod := by cases p <;> rfl
@[simp] theorem records_setMport (s : State) (p : MPortId) (x : MPort) : (s.setMport p x).records = s.records := by cases p <;> rfl
@[simp] theorem slotMap_setMport (s : State) (p : MPortId) (x : MPort) : (s.setMport p x).slotMap = s.slotMap := by cases p <;> rfl
@[simp] theorem selections_setMport (s : State) (p : MPortId) (x : MPort) : (s.setMport p x).selections = s.selections := by cases p <;> rfl
@[simp] theorem contexts_setMport (s : State) (p : MPortId) (x : MPort) : (s.setMport p x).contexts = s.contexts := by cases p <;> rfl
@[simp] theorem attention_setMport (s : State) (p : MPortId) (x : MPort) : (s.setMport p x).attention = s.attention := by cases p <;> rfl
@[simp] theorem enableM_setMport (s : State) (p : MPortId) (x : MPort) : (s.setMport p x).enableM = s.enableM := by cases p <;> rfl
@[simp] theorem enableS_setMport (s : State) (p : MPortId) (x : MPort) : (s.setMport p x).enableS = s.enableS := by cases p <;> rfl
@[simp] theorem lastOp_setMport (s : State) (p : MPortId) (x : MPort) : (s.setMport p x).lastOp = s.lastOp := by cases p <;> rfl
@[simp] theorem acks_setMport (s : State) (p : MPortId) (x : MPort) : (s.setMport p x).acks = s.acks := by cases p <;> rfl
@[simp] theorem executor_setMport (s : State) (p : MPortId) (x : MPort) : (s.setMport p x).executor = s.executor := by cases p <;> rfl
@[simp] theorem lastServed_setMport (s : State) (p : MPortId) (x : MPort) : (s.setMport p x).lastServed = s.lastServed := by cases p <;> rfl
@[simp] theorem pending_setMport (s : State) (p : MPortId) (x : MPort) : (s.setMport p x).pending = s.pending := by cases p <;> rfl

/-! ### answering -/

@[simp] theorem rst_answering (s : State) (x : Execution) (a : Answer) : (s.answering x a).rst = s.rst := rfl
@[simp] theorem straps_answering (s : State) (x : Execution) (a : Answer) : (s.answering x a).straps = s.straps := rfl
@[simp] theorem ports_answering (s : State) (x : Execution) (a : Answer) : (s.answering x a).ports = s.ports := rfl
@[simp] theorem ref_answering (s : State) (x : Execution) (a : Answer) : (s.answering x a).ref = s.ref := rfl
@[simp] theorem interval_answering (s : State) (x : Execution) (a : Answer) : (s.answering x a).interval = s.interval := rfl
@[simp] theorem slipPeriod_answering (s : State) (x : Execution) (a : Answer) : (s.answering x a).slipPeriod = s.slipPeriod := rfl
@[simp] theorem records_answering (s : State) (x : Execution) (a : Answer) : (s.answering x a).records = s.records := rfl
@[simp] theorem slotMap_answering (s : State) (x : Execution) (a : Answer) : (s.answering x a).slotMap = s.slotMap := rfl
@[simp] theorem selections_answering (s : State) (x : Execution) (a : Answer) : (s.answering x a).selections = s.selections := rfl
@[simp] theorem contexts_answering (s : State) (x : Execution) (a : Answer) : (s.answering x a).contexts = s.contexts := rfl
@[simp] theorem attention_answering (s : State) (x : Execution) (a : Answer) : (s.answering x a).attention = s.attention := rfl
@[simp] theorem enableM_answering (s : State) (x : Execution) (a : Answer) : (s.answering x a).enableM = s.enableM := rfl
@[simp] theorem enableS_answering (s : State) (x : Execution) (a : Answer) : (s.answering x a).enableS = s.enableS := rfl
@[simp] theorem portM_answering (s : State) (x : Execution) (a : Answer) : (s.answering x a).portM = s.portM := rfl
@[simp] theorem portS_answering (s : State) (x : Execution) (a : Answer) : (s.answering x a).portS = s.portS := rfl
@[simp] theorem lastOp_answering (s : State) (x : Execution) (a : Answer) : (s.answering x a).lastOp = s.lastOp := rfl
@[simp] theorem acks_answering (s : State) (x : Execution) (a : Answer) : (s.answering x a).acks = s.acks := rfl
@[simp] theorem lastServed_answering (s : State) (x : Execution) (a : Answer) : (s.answering x a).lastServed = s.lastServed := rfl
@[simp] theorem pending_answering (s : State) (x : Execution) (a : Answer) : (s.answering x a).pending = s.pending := rfl

/-! ### markPending -/

@[simp] theorem rst_markPending (s : State) (id : Nat) : (s.markPending id).rst = s.rst := by unfold State.markPending; split <;> rfl
@[simp] theorem straps_markPending (s : State) (id : Nat) : (s.markPending id).straps = s.straps := by unfold State.markPending; split <;> rfl
@[simp] theorem ports_markPending (s : State) (id : Nat) : (s.markPending id).ports = s.ports := by unfold State.markPending; split <;> rfl
@[simp] theorem ref_markPending (s : State) (id : Nat) : (s.markPending id).ref = s.ref := by unfold State.markPending; split <;> rfl
@[simp] theorem interval_markPending (s : State) (id : Nat) : (s.markPending id).interval = s.interval := by unfold State.markPending; split <;> rfl
@[simp] theorem slipPeriod_markPending (s : State) (id : Nat) : (s.markPending id).slipPeriod = s.slipPeriod := by unfold State.markPending; split <;> rfl
@[simp] theorem slotMap_markPending (s : State) (id : Nat) : (s.markPending id).slotMap = s.slotMap := by unfold State.markPending; split <;> rfl
@[simp] theorem selections_markPending (s : State) (id : Nat) : (s.markPending id).selections = s.selections := by unfold State.markPending; split <;> rfl
@[simp] theorem contexts_markPending (s : State) (id : Nat) : (s.markPending id).contexts = s.contexts := by unfold State.markPending; split <;> rfl
@[simp] theorem attention_markPending (s : State) (id : Nat) : (s.markPending id).attention = s.attention := by unfold State.markPending; split <;> rfl
@[simp] theorem enableM_markPending (s : State) (id : Nat) : (s.markPending id).enableM = s.enableM := by unfold State.markPending; split <;> rfl
@[simp] theorem enableS_markPending (s : State) (id : Nat) : (s.markPending id).enableS = s.enableS := by unfold State.markPending; split <;> rfl
@[simp] theorem portM_markPending (s : State) (id : Nat) : (s.markPending id).portM = s.portM := by unfold State.markPending; split <;> rfl
@[simp] theorem portS_markPending (s : State) (id : Nat) : (s.markPending id).portS = s.portS := by unfold State.markPending; split <;> rfl
@[simp] theorem lastOp_markPending (s : State) (id : Nat) : (s.markPending id).lastOp = s.lastOp := by unfold State.markPending; split <;> rfl
@[simp] theorem acks_markPending (s : State) (id : Nat) : (s.markPending id).acks = s.acks := by unfold State.markPending; split <;> rfl
@[simp] theorem executor_markPending (s : State) (id : Nat) : (s.markPending id).executor = s.executor := by unfold State.markPending; split <;> rfl
@[simp] theorem lastServed_markPending (s : State) (id : Nat) : (s.markPending id).lastServed = s.lastServed := by unfold State.markPending; split <;> rfl
@[simp] theorem pending_markPending (s : State) (id : Nat) : (s.markPending id).pending = s.pending := by unfold State.markPending; split <;> rfl

/-! ### commitContext -/

@[simp] theorem rst_commitContext (s : State) (id k : Nat) (a b : Context) : (s.commitContext id k a b).rst = s.rst := by unfold State.commitContext; split <;> simp
@[simp] theorem straps_commitContext (s : State) (id k : Nat) (a b : Context) : (s.commitContext id k a b).straps = s.straps := by unfold State.commitContext; split <;> simp
@[simp] theorem ports_commitContext (s : State) (id k : Nat) (a b : Context) : (s.commitContext id k a b).ports = s.ports := by unfold State.commitContext; split <;> simp
@[simp] theorem ref_commitContext (s : State) (id k : Nat) (a b : Context) : (s.commitContext id k a b).ref = s.ref := by unfold State.commitContext; split <;> simp
@[simp] theorem interval_commitContext (s : State) (id k : Nat) (a b : Context) : (s.commitContext id k a b).interval = s.interval := by unfold State.commitContext; split <;> simp
@[simp] theorem slipPeriod_commitContext (s : State) (id k : Nat) (a b : Context) : (s.commitContext id k a b).slipPeriod = s.slipPeriod := by unfold State.commitContext; split <;> simp
@[simp] theorem slotMap_commitContext (s : State) (id k : Nat) (a b : Context) : (s.commitContext id k a b).slotMap = s.slotMap := by unfold State.commitContext; split <;> simp
@[simp] theorem selections_commitContext (s : State) (id k : Nat) (a b : Context) : (s.commitContext id k a b).selections = s.selections := by unfold State.commitContext; split <;> simp
@[simp] theorem enableM_commitContext (s : State) (id k : Nat) (a b : Context) : (s.commitContext id k a b).enableM = s.enableM := by unfold State.commitContext; split <;> simp
@[simp] theorem enableS_commitContext (s : State) (id k : Nat) (a b : Context) : (s.commitContext id k a b).enableS = s.enableS := by unfold State.commitContext; split <;> simp
@[simp] theorem portM_commitContext (s : State) (id k : Nat) (a b : Context) : (s.commitContext id k a b).portM = s.portM := by unfold State.commitContext; split <;> simp
@[simp] theorem portS_commitContext (s : State) (id k : Nat) (a b : Context) : (s.commitContext id k a b).portS = s.portS := by unfold State.commitContext; split <;> simp
@[simp] theorem lastOp_commitContext (s : State) (id k : Nat) (a b : Context) : (s.commitContext id k a b).lastOp = s.lastOp := by unfold State.commitContext; split <;> simp
@[simp] theorem acks_commitContext (s : State) (id k : Nat) (a b : Context) : (s.commitContext id k a b).acks = s.acks := by unfold State.commitContext; split <;> simp
@[simp] theorem executor_commitContext (s : State) (id k : Nat) (a b : Context) : (s.commitContext id k a b).executor = s.executor := by unfold State.commitContext; split <;> simp
@[simp] theorem lastServed_commitContext (s : State) (id k : Nat) (a b : Context) : (s.commitContext id k a b).lastServed = s.lastServed := by unfold State.commitContext; split <;> simp
@[simp] theorem pending_commitContext (s : State) (id k : Nat) (a b : Context) : (s.commitContext id k a b).pending = s.pending := by unfold State.commitContext; split <;> simp

/-! ### changePort -/

@[simp] theorem rst_changePort (s : State) (n : PortNo) (q : Port) : (s.changePort n q).rst = s.rst := by unfold State.changePort; simp
@[simp] theorem straps_changePort (s : State) (n : PortNo) (q : Port) : (s.changePort n q).straps = s.straps := by unfold State.changePort; simp
@[simp] theorem interval_changePort (s : State) (n : PortNo) (q : Port) : (s.changePort n q).interval = s.interval := by unfold State.changePort; simp
@[simp] theorem slipPeriod_changePort (s : State) (n : PortNo) (q : Port) : (s.changePort n q).slipPeriod = s.slipPeriod := by unfold State.changePort; simp
@[simp] theorem records_changePort (s : State) (n : PortNo) (q : Port) : (s.changePort n q).records = s.records := by unfold State.changePort; simp
@[simp] theorem slotMap_changePort (s : State) (n : PortNo) (q : Port) : (s.changePort n q).slotMap = s.slotMap := by unfold State.changePort; simp
@[simp] theorem selections_changePort (s : State) (n : PortNo) (q : Port) : (s.changePort n q).selections = s.selections := by unfold State.changePort; simp
@[simp] theorem contexts_changePort (s : State) (n : PortNo) (q : Port) : (s.changePort n q).contexts = s.contexts := by unfold State.changePort; simp
@[simp] theorem enableM_changePort (s : State) (n : PortNo) (q : Port) : (s.changePort n q).enableM = s.enableM := by unfold State.changePort; simp
@[simp] theorem enableS_changePort (s : State) (n : PortNo) (q : Port) : (s.changePort n q).enableS = s.enableS := by unfold State.changePort; simp
@[simp] theorem portM_changePort (s : State) (n : PortNo) (q : Port) : (s.changePort n q).portM = s.portM := by unfold State.changePort; simp
@[simp] theorem portS_changePort (s : State) (n : PortNo) (q : Port) : (s.changePort n q).portS = s.portS := by unfold State.changePort; simp
@[simp] theorem lastOp_changePort (s : State) (n : PortNo) (q : Port) : (s.changePort n q).lastOp = s.lastOp := by unfold State.changePort; simp
@[simp] theorem acks_changePort (s : State) (n : PortNo) (q : Port) : (s.changePort n q).acks = s.acks := by unfold State.changePort; simp
@[simp] theorem executor_changePort (s : State) (n : PortNo) (q : Port) : (s.changePort n q).executor = s.executor := by unfold State.changePort; simp
@[simp] theorem lastServed_changePort (s : State) (n : PortNo) (q : Port) : (s.changePort n q).lastServed = s.lastServed := by unfold State.changePort; simp
@[simp] theorem pending_changePort (s : State) (n : PortNo) (q : Port) : (s.changePort n q).pending = s.pending := by unfold State.changePort; simp

/-! ### What the updates write -/

@[simp] theorem attention_post (s : State) (x : Subject) (c : Change) :
    (s.post x c).attention = postTo s.attention x c := rfl
@[simp] theorem attention_postIf (s : State) (b : Bool) (x : Subject) (c : Change) :
    (s.postIf b x c).attention = if b then postTo s.attention x c else s.attention := by cases b <;> rfl
@[simp] theorem records_setRecord (s : State) (id : Nat) (r : Record) :
    (s.setRecord id r).records = s.records.put id r := rfl
@[simp] theorem slotMap_reserve (s : State) (ts : List Triple) (id : Nat) :
    (s.reserve ts id).slotMap = s.slotMap.putKeys (ts.map Triple.key) id := rfl
@[simp] theorem slotMap_releaseTriples (s : State) (ts : List Triple) :
    (s.releaseTriples ts).slotMap = s.slotMap.delKeys (ts.map Triple.key) := rfl
@[simp] theorem executor_answering (s : State) (x : Execution) (a : Answer) :
    (s.answering x a).executor = some { x with answer := some a } := rfl
@[simp] theorem mport_setMport_same (s : State) (p : MPortId) (x : MPort) : (s.setMport p x).mport p = x := by
  cases p <;> rfl
theorem mport_setMport_ne (s : State) {p q : MPortId} (x : MPort) (h : q ≠ p) :
    (s.setMport p x).mport q = s.mport q := by
  cases p <;> cases q <;> first | rfl | exact absurd rfl h

end Sys2Proof.Machine
end

