-- ==== Sys2Proof/Laws/Bits.lean ====
section
/-! SUPPORT. What the bit operations and a port's own stream give, said once: a byte is the byte its bits
spell, a frame's slots are read back from its 288 bits, and the search gives the first match. -/

namespace Sys2Proof.Machine

/-! ### Bytes and slots -/

@[simp] theorem length_byteBits (b : Byte) : (byteBits b).length = 8 := by simp [byteBits]

/-- The bits of a byte spell it. -/
@[simp] theorem bitsByte_byteBits (b : Byte) : bitsByte (byteBits b) = b := by revert b; decide +kernel

@[simp] theorem slotsBits_cons (b : Byte) (l : List Byte) :
    slotsBits (b :: l) = byteBits b ++ slotsBits l := rfl

@[simp] theorem length_slotsBits (l : List Byte) : (slotsBits l).length = 8 * l.length := by
  induction l with
  | nil => rfl
  | cons b t ih => simp only [slotsBits_cons, List.length_append, length_byteBits, ih, List.length_cons]; omega

/-- The slots from the k-th on begin 8 * k bits on. -/
theorem drop_slotsBits (l : List Byte) (k : Nat) : (slotsBits l).drop (8 * k) = slotsBits (l.drop k) := by
  induction k generalizing l with
  | zero => rfl
  | succ k ih =>
    cases l with
    | nil => simp [slotsBits]
    | cons b t =>
      have h : 8 * (k + 1) = (byteBits b).length + 8 * k := by simp only [length_byteBits]; omega
      rw [slotsBits_cons, h, ← List.drop_drop, List.drop_left, List.drop_succ_cons, ih]

/-- The eight bits of slot k (R1). -/
theorem slotBits_slotsBits {l : List Byte} {k : Nat} (h : k < l.length) :
    ((slotsBits l).drop (8 * k)).take 8 = byteBits l[k] := by
  rw [drop_slotsBits, ← List.getElem_cons_drop h, slotsBits_cons]
  exact List.take_left' (length_byteBits _)

@[simp] theorem length_onesBits : onesBits.length = 288 := List.length_replicate ..

/-! ### The bytes of a bus transaction (R171) -/

theorem wholeBytes_short {l : List Bool} (h : l.length < 8) : wholeBytes l = [] := by
  match l with
  | [] | [_] | [_, _] | [_, _, _] | [_, _, _, _] | [_, _, _, _, _] | [_, _, _, _, _, _] => rfl
  | [_, _, _, _, _, _, _] => rfl
  | _ :: _ :: _ :: _ :: _ :: _ :: _ :: _ :: t => simp only [List.length_cons] at h; omega

theorem wholeBytes_byteBits (b : Byte) (l : List Bool) :
    wholeBytes (byteBits b ++ l) = b :: wholeBytes l := by
  conv => rhs; rw [← bitsByte_byteBits b]
  rfl

/-- The whole bytes of some bytes' bits and of an unfinished byte's are those bytes. -/
theorem wholeBytes_slotsBits (l : List Byte) {rest : List Bool} (h : rest.length < 8) :
    wholeBytes (slotsBits l ++ rest) = l := by
  induction l with
  | nil => exact wholeBytes_short h
  | cons b t ih => rw [slotsBits_cons, List.append_assoc, wholeBytes_byteBits, ih]

theorem unfinishedBits_slotsBits (l : List Byte) {rest : List Bool} (h : rest.length < 8) :
    unfinishedBits (slotsBits l ++ rest) = rest := by
  have hd : (slotsBits l ++ rest).length / 8 = l.length := by
    simp only [List.length_append, length_slotsBits]; omega
  rw [unfinishedBits, hd]
  exact List.drop_left' (length_slotsBits l)

/-- An unfinished byte has fewer than eight bits. -/
theorem length_unfinishedBits (l : List Bool) : (unfinishedBits l).length < 8 := by
  simp only [unfinishedBits, List.length_drop]; omega

/-- The bytes begun with some bits and with more after them are those begun with both. -/
theorem bytesBegun_add (a b c : Nat) : bytesBegun a b + bytesBegun (a + b) c = bytesBegun a (b + c) := by
  simp only [bytesBegun]; omega

/-! ### The search (R3) -/

/-- The first match: four bits that are 1011, and none before them. -/
theorem firstMatch_some {l : List Bool} {k : Nat} (h : firstMatch l = some k) :
    (l.drop k).take 4 = alignmentBits ∧ ∀ j < k, (l.drop j).take 4 ≠ alignmentBits := by
  induction l generalizing k with
  | nil => cases h
  | cons b t ih =>
    rw [firstMatch] at h
    split at h
    · rename_i hm
      cases h
      exact ⟨hm, fun j hj => absurd hj (Nat.not_lt_zero j)⟩
    · rename_i hm
      obtain ⟨i, hi, rfl⟩ := Option.map_eq_some_iff.mp h
      refine ⟨(ih hi).1, fun j hj => ?_⟩
      cases j with
      | zero => exact hm
      | succ j => exact (ih hi).2 j (Nat.lt_of_succ_lt_succ hj)

/-- Bits with a match have a first one. -/
theorem firstMatch_isSome {l : List Bool} {k : Nat} (h : (l.drop k).take 4 = alignmentBits) :
    (firstMatch l).isSome = true := by
  induction l generalizing k with
  | nil => rw [List.drop_nil] at h; cases h
  | cons b t ih =>
    rw [firstMatch]
    split
    · rfl
    · rename_i hm
      cases k with
      | zero => exact absurd h hm
      | succ k => rw [Option.isSome_map]; exact ih h

/-- The search keeps three bits at most. -/
@[simp] theorem length_lastThree (l : List Bool) : (lastThree l).length = min 3 l.length := by
  simp only [lastThree, List.length_drop]; omega

/-! ### The stream of a port (R1, R15, R103) -/

theorem length_txBits {p : Port} (h : ∀ b, p.txPayload = some b → b.length = 35) :
    p.txBits.length = 288 := by
  unfold Port.txBits Port.txFrame
  cases hb : p.txPayload with
  | none => exact length_onesBits
  | some b => simp [h b hb]

/-- What was sent last is always a frame period long. -/
theorem length_lastSent {p : Port} {sent : Nat} (hl : p.txLast.length = 288)
    (ht : p.txBits.length = 288) (hs : sent ≤ 288) : (p.lastSent sent).length = 288 := by
  simp only [Port.lastSent, List.length_append, List.length_drop, List.length_take, hl, ht]
  omega

/-- As many of the port's own bits are held as a frame has, at every place. -/
theorem length_ownBits {p : Port} {count : Nat} (hl : p.txLast.length = 288) (ht : p.txBits.length = 288)
    (hc : count ≤ 288) (place : Place) : (p.ownBits place count).length = count := by
  have ho : p.offset place < 288 := (place - p.txPlace).isLt
  have hi : p.ownIndex place count + count ≤ 576 := by
    unfold Port.ownIndex
    split <;> simp only [Config.frameBits] at * <;> omega
  simp only [Port.ownBits, Port.ownStream, List.length_take, List.length_drop, List.length_append, hl, ht]
  omega

theorem received_line {p : Port} (h : p.maint.loop ≠ .inwardHost) (place : Place) (bits : List Bool) :
    p.received place bits = bits := by
  have hi : p.inward = false := by simpa [Port.inward] using h
  simp [Port.received, hi]

theorem seen_line {p : Port} (h : p.maint.loop ≠ .inwardHost) (bits : List Bool) :
    p.seen bits = p.framer.overhead ++ bits.take (8 - p.framer.overhead.length) := by
  rw [Port.seen, received_line h]

/-- With no byte in progress, the first bits of the port's own overhead are seen at its place. -/
theorem seen_inward {p : Port} (h : p.maint.loop = .inwardHost) (ho : p.framer.overhead = [])
    (bits : List Bool) : p.seen bits = p.ownBits p.framer.place (bits.take 8).length := by
  have hi : p.inward = true := by simpa [Port.inward] using h
  simp [Port.seen, Port.received, hi, ho]

theorem slotBits_line {p : Port} (h : p.maint.loop ≠ .inwardHost) (k : Nat) (bits : List Bool) :
    p.slotBits k bits = some (p.slip.slot ++ bits.take (8 - p.slip.slot.length)) := by
  have hi : p.inward = false := by simpa [Port.inward] using h
  simp [Port.slotBits, hi]

end Sys2Proof.Machine
end

