-- ==== Sys2Proof/Laws/Management.lean ====
section
/-! SUPPORT. What a management port does with a bus transaction, said once for each shared operation: the
start of an I2C transfer, more bits of a write or a read, and the ends. -/

namespace Sys2Proof.Machine

/-! ### The start of an I2C transfer (R172) -/

/-- Port S's own address on a free bus is acknowledged and the transfer taken. -/
theorem addressed_own {s : State} {act : State → State} (h : s.busFree .s = true) :
    s.addressed s.address act = act { s with acks := 1 } := by
  simp [State.addressed, State.acknowledges, h]

/-- Another address on a free bus is not acknowledged. -/
theorem addressed_other {s : State} {a : BitVec 7} {act : State → State} (h : s.busFree .s = true)
    (ha : a ≠ s.address) : s.addressed a act = { s with portS := s.portS.quiet, acks := 0 } := by
  simp [State.addressed, State.acknowledges, h, ha]

/-- While RST is low, or a transaction runs or is missed, nothing changes. -/
theorem addressed_busy {s : State} {a : BitVec 7} {act : State → State} (h : s.busFree .s = false) :
    s.addressed a act = s := by
  simp [State.addressed, State.acknowledges, h]

/-! ### More bits of a write -/

/-- Bytes after an unfinished byte's first bits are stored where the write was taken (R173). -/
theorem writeMore_taken {x : MPort} {shift : List Bool} (h : x.bus = .writing true shift)
    (bits : List Bool) : x.writeMore bits = { x with
      request := storeFrame (x.request ++ wholeBytes (shift ++ bits)),
      bus := .writing true (unfinishedBits (shift ++ bits)) } := by
  simp [MPort.writeMore, h]

/-- They are not where it was refused (R175). -/
theorem writeMore_refused {x : MPort} {shift : List Bool} (h : x.bus = .writing false shift)
    (bits : List Bool) : x.writeMore bits = { x with bus := .writing false (unfinishedBits (shift ++ bits)) } := by
  simp [MPort.writeMore, h]

/-! ### What a read has sent -/

@[simp] theorem length_readBytes (x : MPort) (live : Bool) (first count : Nat) :
    (x.readBytes live first count).length = count := by
  simp [MPort.readBytes]

/-- A response read keeps one byte begun for every eight bits or the first of them (R176). -/
theorem length_sent_readMore {x : MPort} {live : Bool} {k : Nat} (h : x.bus = .reading live k)
    (hs : x.sent.length = (k + 7) / 8) (count : Nat) :
    (x.readMore count).sent.length = (k + count + 7) / 8 := by
  simp only [MPort.readMore, h, List.length_append, length_readBytes, hs, bytesBegun]
  omega

/-! ### The ends -/

/-- No transaction runs after the end of one that was running as RST rose, whichever end it is (R184). -/
theorem ends_missed {x : MPort} (h : x.bus = .missed) :
    x.endWrite = { x with bus := .free } ∧ x.endRead = { x with bus := .free } := by
  simp [MPort.endWrite, MPort.endRead, h]

end Sys2Proof.Machine
end

