-- ==== Sys2Proof/Laws/Table.lean ====
section
/-! SUPPORT. Laws of the sparse tables: what each operation reads as at every key, and that each keeps
the canonical form. -/

namespace Sys2Proof.Machine.Table

variable {α : Type}

/-! ### Reading -/

@[simp] theorem get_nil (k : Nat) : get ([] : Table α) k = none := rfl

theorem get_cons (e : Nat × α) (t : Table α) (k : Nat) :
    get (e :: t) k = if e.1 = k then some e.2 else get t k := rfl

@[simp] theorem get_put_same (t : Table α) (k : Nat) (v : α) : (t.put k v).get k = some v := by
  induction t with
  | nil => simp [put, get]
  | cons e t ih =>
    simp only [put]
    split
    · simp [get]
    · split
      · simp [get]
      · simp [get, ih]; omega

theorem get_put_ne (t : Table α) {k j : Nat} (v : α) (h : j ≠ k) : (t.put k v).get j = t.get j := by
  induction t with
  | nil => simp [put, get, Ne.symm h]
  | cons e t ih =>
    simp only [put]
    split
    · simp [get, Ne.symm h]
    · split
      · rename_i _ h2; subst h2; simp [get, Ne.symm h]
      · simp [get, ih]

theorem get_put (t : Table α) (k j : Nat) (v : α) :
    (t.put k v).get j = if j = k then some v else t.get j := by
  split
  · subst j; exact get_put_same t k v
  · exact get_put_ne t v ‹_›

theorem get_filter_of_key (t : Table α) (f : Nat → Bool) (k : Nat) :
    get (t.filter fun e => f e.1) k = if f k then t.get k else none := by
  induction t with
  | nil => simp
  | cons e t ih =>
    by_cases he : f e.1 <;> by_cases hk : e.1 = k
    · subst hk; simp [he, get]
    · simp [he, get, hk, ih]
    · subst hk; simp [he, ih]
    · simp [he, get, hk, ih]

theorem get_del (t : Table α) (k j : Nat) : (t.del k).get j = if j = k then none else t.get j := by
  have h := get_filter_of_key t (fun x => decide (x ≠ k)) j
  simp only [decide_eq_true_eq] at h
  rw [del, h]
  by_cases hj : j = k <;> simp [hj]

@[simp] theorem get_del_same (t : Table α) (k : Nat) : (t.del k).get k = none := by simp [get_del]

theorem get_delKeys (t : Table α) (ks : List Nat) (j : Nat) :
    (t.delKeys ks).get j = if j ∈ ks then none else t.get j := by
  have h := get_filter_of_key t (fun x => decide (x ∉ ks)) j
  simp only [decide_eq_true_eq] at h
  rw [delKeys, h]
  by_cases hj : j ∈ ks <;> simp [hj]

theorem get_putKeys (t : Table α) (ks : List Nat) (v : α) (j : Nat) :
    (t.putKeys ks v).get j = if j ∈ ks then some v else t.get j := by
  induction ks generalizing t with
  | nil => simp [putKeys]
  | cons k ks ih =>
    have := ih (t.put k v)
    simp only [putKeys, List.foldl_cons] at this ⊢
    rw [this, get_put]
    by_cases h1 : j ∈ ks <;> by_cases h2 : j = k <;> simp [h1, h2]

theorem get_mapValues (t : Table α) (f : Nat → α → α) (k : Nat) :
    (t.mapValues f).get k = (t.get k).map (f k) := by
  induction t with
  | nil => rfl
  | cons e t ih =>
    change (if e.1 = k then some (f e.1 e.2) else get (mapValues t f) k) = _
    rw [get_cons, ih]
    split
    · rename_i h; subst h; rfl
    · rfl

theorem get_some_mem {t : Table α} {k : Nat} {v : α} (h : t.get k = some v) : (k, v) ∈ t := by
  induction t with
  | nil => simp at h
  | cons e t ih =>
    rw [get_cons] at h
    split at h
    · rename_i he; cases h; subst he; exact List.mem_cons_self ..
    · exact List.mem_cons_of_mem _ (ih h)

/-- In canonical form a listed pair is what its key reads as. -/
theorem mem_get {t : Table α} (w : t.wf) {k : Nat} {v : α} (h : (k, v) ∈ t) : t.get k = some v := by
  induction t with
  | nil => simp at h
  | cons e t ih =>
    rw [get_cons]
    rcases List.mem_cons.mp h with rfl | h'
    · simp
    · have hlt : e.1 < k := (List.pairwise_cons.mp w).1 (k, v) h'
      rw [if_neg (by omega)]
      exact ih (List.pairwise_cons.mp w).2 h'

theorem mem_keys {t : Table α} {k : Nat} : k ∈ t.keys ↔ (t.get k).isSome := by
  induction t with
  | nil => simp [keys]
  | cons e t ih =>
    simp only [keys, List.map_cons, List.mem_cons] at ih ⊢
    rw [get_cons]
    by_cases h : e.1 = k
    · simp [h]
    · simp [h, Ne.symm h, ih]

/-! ### Canonical form -/

theorem wf_nil : wf ([] : Table α) := List.Pairwise.nil

theorem mem_put {t : Table α} {k : Nat} {v : α} {e : Nat × α} (h : e ∈ t.put k v) : e = (k, v) ∨ e ∈ t := by
  induction t with
  | nil => simpa [put] using h
  | cons x t ih =>
    simp only [put] at h
    split at h
    · simpa using h
    · split at h
      · rcases List.mem_cons.mp h with h | h
        · exact .inl h
        · exact .inr (List.mem_cons_of_mem _ h)
      · rcases List.mem_cons.mp h with h | h
        · exact .inr (h ▸ List.mem_cons_self ..)
        · exact (ih h).imp id (List.mem_cons_of_mem _)

theorem wf_put {t : Table α} (h : t.wf) (k : Nat) (v : α) : (t.put k v).wf := by
  induction t with
  | nil => simp [put, wf]
  | cons e t ih =>
    obtain ⟨h1, h2⟩ := List.pairwise_cons.mp h
    simp only [put]
    split
    · rename_i hlt
      refine List.pairwise_cons.mpr ⟨fun x hx => ?_, h⟩
      rcases List.mem_cons.mp hx with rfl | hx
      · exact hlt
      · exact lt_trans hlt (h1 x hx)
    · split
      · rename_i _ he
        refine List.pairwise_cons.mpr ⟨fun x hx => ?_, h2⟩
        have := h1 x hx
        simp only at this ⊢; omega
      · rename_i hlt hne
        refine List.pairwise_cons.mpr ⟨fun x hx => ?_, ih h2⟩
        rcases mem_put hx with rfl | hx
        · simp only; omega
        · exact h1 x hx

theorem wf_filter {t : Table α} (h : t.wf) (p : Nat × α → Bool) : Table.wf (t.filter p) := h.filter p

theorem wf_del {t : Table α} (h : t.wf) (k : Nat) : (t.del k).wf := wf_filter h _

theorem wf_delKeys {t : Table α} (h : t.wf) (ks : List Nat) : (t.delKeys ks).wf := wf_filter h _

theorem wf_delValue [DecidableEq α] {t : Table α} (h : t.wf) (v : α) : (t.delValue v).wf := wf_filter h _

theorem wf_putKeys {t : Table α} (h : t.wf) (ks : List Nat) (v : α) : (t.putKeys ks v).wf := by
  induction ks generalizing t with
  | nil => exact h
  | cons k ks ih => exact ih (wf_put h k v)

theorem wf_mapValues {t : Table α} (h : t.wf) (f : Nat → α → α) : (t.mapValues f).wf :=
  List.pairwise_map.mpr h

/-! ### The lowest free key -/

theorem lowestFree_spec {t : Table α} {bound k : Nat} (h : t.lowestFree bound = some k) :
    k < bound ∧ t.get k = none ∧ ∀ j < k, (t.get j).isSome := by
  obtain ⟨hk, i, hi, hget, hlt⟩ := List.find?_eq_some_iff_getElem.mp h
  simp only [List.getElem_range] at hget
  subst hget
  refine ⟨by simpa using hi, by simpa using hk, fun j hj => ?_⟩
  have := hlt j hj
  simp only [List.getElem_range] at this
  cases hg : t.get j <;> simp_all

theorem lowestFree_none {t : Table α} {bound : Nat} (h : t.lowestFree bound = none) :
    ∀ j < bound, (t.get j).isSome := by
  intro j hj
  have := List.find?_eq_none.mp h j (by simpa using hj)
  cases hg : t.get j <;> simp_all

end Sys2Proof.Machine.Table
end

