-- ==== Sys2Proof/Laws/Ops.lean ====
section
/-! SUPPORT. One lemma, or a few, for each shared operation, that say once everything it does: the
executor's step, postings, a port's change with what it sets off, a context's step, selections, and the
request checks. -/

namespace Sys2Proof.Machine

/-! ### The executor's step -/

/-- A request the executor has been handed is carried out, and its answer stands. -/
theorem carryOut_handed {i : Instr} {act : State → Answer × State} {s : State} {x : Execution}
    (h : s.handed i x) : carryOut i act s = .next ((act s).2.answering x (act s).1) := by
  obtain ⟨he, hr, ha⟩ := h
  simp [carryOut, he, hr, ha]

/-- Any other request changes nothing. -/
theorem carryOut_not_handed {i : Instr} {act : State → Answer × State} {s : State}
    (h : ∀ x, ¬ s.handed i x) : carryOut i act s = .next s := by
  unfold carryOut
  cases he : s.executor with
  | none => rfl
  | some x =>
    have hx := h x
    simp only [State.handed, he, true_and] at hx
    exact if_neg hx

/-- Either way there is a next state. -/
theorem carryOut_next (i : Instr) (act : State → Answer × State) (s : State) :
    (∃ x, s.handed i x ∧ carryOut i act s = .next ((act s).2.answering x (act s).1)) ∨
      ((∀ x, ¬ s.handed i x) ∧ carryOut i act s = .next s) := by
  by_cases h : ∃ x, s.handed i x
  · obtain ⟨x, hx⟩ := h
    exact .inl ⟨x, hx, carryOut_handed hx⟩
  · have h' : ∀ x, ¬ s.handed i x := fun x hx => h ⟨x, hx⟩
    exact .inr ⟨h', carryOut_not_handed h'⟩

/-! ### Postings (R163) -/

/-- The kind is in the subject's entry afterwards. -/
def Summary.has (m : Summary) : Change → Bool
  | .health => m.health
  | .select => m.select
  | .state => m.state
  | .portDefect => m.portDefect
  | .farAlarm => m.farAlarm
  | .code => m.code
  | .loop => m.loop

theorem Summary.has_add (m : Summary) (c d : Change) :
    (m.add c).has d = (decide (c = d) || m.has d) := by cases c <;> cases d <;> simp [add, has]

theorem Summary.has_empty (d : Change) : Summary.empty.has d = false := by cases d <;> rfl

theorem postTo_has (l : List Entry) (x : Subject) (c : Change) :
    ∃ e ∈ postTo l x c, e.subject = x ∧ e.summary.has c = true := by
  induction l with
  | nil => exact ⟨_, List.mem_singleton_self _, rfl, by simp [Summary.has_add]⟩
  | cons e t ih =>
    simp only [postTo]
    split
    · rename_i h
      exact ⟨_, List.mem_cons_self .., h, by simp [Summary.has_add]⟩
    · obtain ⟨e', h1, h2⟩ := ih
      exact ⟨e', List.mem_cons_of_mem _ h1, h2⟩

/-- Nothing in the list is lost: every subject keeps every kind. -/
theorem postTo_keeps {l : List Entry} {x y : Subject} {c d : Change}
    (h : ∃ e ∈ l, e.subject = y ∧ e.summary.has d = true) :
    ∃ e ∈ postTo l x c, e.subject = y ∧ e.summary.has d = true := by
  induction l with
  | nil => simp at h
  | cons a t ih =>
    obtain ⟨e, he, hy, hd⟩ := h
    simp only [postTo]
    split
    · rcases List.mem_cons.mp he with rfl | he
      · exact ⟨_, List.mem_cons_self .., hy, by simp [Summary.has_add, hd]⟩
      · exact ⟨e, List.mem_cons_of_mem _ he, hy, hd⟩
    · rcases List.mem_cons.mp he with rfl | he
      · exact ⟨e, List.mem_cons_self .., hy, hd⟩
      · obtain ⟨e', h1, h2⟩ := ih ⟨e, he, hy, hd⟩
        exact ⟨e', List.mem_cons_of_mem _ h1, h2⟩

/-- Nothing but the posting is new. -/
theorem postTo_new {l : List Entry} {x y : Subject} {c d : Change} {e : Entry} (he : e ∈ postTo l x c)
    (hy : e.subject = y) (hd : e.summary.has d = true) (hne : x ≠ y ∨ c ≠ d) :
    ∃ e' ∈ l, e'.subject = y ∧ e'.summary.has d = true := by
  induction l with
  | nil =>
    rw [postTo, List.mem_singleton] at he
    subst he
    rcases hne with h | h
    · exact absurd hy h
    · simp [Summary.has_add, Summary.has_empty, h] at hd
  | cons a t ih =>
    simp only [postTo] at he
    split at he
    · rename_i hax
      rcases List.mem_cons.mp he with rfl | he
      · rcases hne with h | h
        · exact absurd (hax.symm.trans hy) h
        · exact ⟨a, List.mem_cons_self .., hy, by simpa [Summary.has_add, h] using hd⟩
      · exact ⟨e, List.mem_cons_of_mem _ he, hy, hd⟩
    · rcases List.mem_cons.mp he with rfl | he
      · exact ⟨e, List.mem_cons_self .., hy, hd⟩
      · obtain ⟨e', h1, h2⟩ := ih he
        exact ⟨e', List.mem_cons_of_mem _ h1, h2⟩

/-- The subjects of the list: those there, and the posted one at the tail where it is new. -/
theorem postTo_subjects (l : List Entry) (x : Subject) (c : Change) :
    (postTo l x c).map Entry.subject =
      if x ∈ l.map Entry.subject then l.map Entry.subject else l.map Entry.subject ++ [x] := by
  induction l with
  | nil => simp [postTo]
  | cons a t ih =>
    simp only [postTo]
    by_cases h : a.subject = x
    · simp [h]
    · simp only [if_neg h, List.map_cons, ih, List.mem_cons, Ne.symm h, false_or]
      split <;> simp

theorem postTo_nodup {l : List Entry} (h : (l.map Entry.subject).Nodup) (x : Subject) (c : Change) :
    ((postTo l x c).map Entry.subject).Nodup := by
  rw [postTo_subjects]
  split
  · exact h
  · rename_i hx
    refine List.nodup_append.mpr ⟨h, by simp, fun a ha b hb hab => hx ?_⟩
    rw [List.mem_singleton] at hb
    exact hb ▸ hab ▸ ha

theorem mem_postTo {l : List Entry} {x : Subject} {c : Change} {e : Entry} (he : e ∈ postTo l x c) :
    e ∈ l ∨ (e.subject = x ∧ ∃ m, e.summary = Summary.add m c ∧
      (m = Summary.empty ∨ ⟨x, m⟩ ∈ l)) := by
  induction l with
  | nil =>
    rw [postTo, List.mem_singleton] at he
    exact .inr (he ▸ ⟨rfl, _, rfl, .inl rfl⟩)
  | cons a t ih =>
    simp only [postTo] at he
    split at he
    · rename_i hax
      rcases List.mem_cons.mp he with rfl | he
      · exact .inr ⟨hax, a.summary, rfl, .inr (by subst x; exact List.mem_cons_self ..)⟩
      · exact .inl (List.mem_cons_of_mem _ he)
    · rcases List.mem_cons.mp he with rfl | he
      · exact .inl (List.mem_cons_self ..)
      · rcases ih he with h | ⟨h1, m, h2, h3⟩
        · exact .inl (List.mem_cons_of_mem _ h)
        · exact .inr ⟨h1, m, h2, h3.imp id (List.mem_cons_of_mem _)⟩

/-! ### Ports -/

theorem mapPorts_get (f : PortNo → Port → Port) (v : Vector Port 16) (n : PortNo) :
    (mapPorts f v)[n] = f n v[n] := by simp [mapPorts]

theorem set_get (v : Vector Port 16) (n m : PortNo) (q : Port) :
    (v.set n q)[m] = if m = n then q else v[m] := by
  simp only [Fin.getElem_fin, Vector.getElem_set, Fin.ext_iff, eq_comm]

theorem set_get_same (v : Vector Port 16) (n : PortNo) (q : Port) : (v.set n q)[n] = q := by
  rw [set_get, if_pos rfl]

theorem set_get_ne (v : Vector Port 16) {n m : PortNo} (q : Port) (h : m ≠ n) : (v.set n q)[m] = v[m] := by
  rw [set_get, if_neg h]

theorem set_get_self (v : Vector Port 16) (n : PortNo) : v.set n v[n] = v := by
  ext i hi
  simp only [Vector.getElem_set]
  split
  · subst i; rfl
  · rfl

/-- Vectors of ports are equal where every port is. -/
theorem ports_ext {v w : Vector Port 16} (h : ∀ n : PortNo, v[n] = w[n]) : v = w := by
  ext i hi
  exact h ⟨i, hi⟩

theorem ports_changePort (s : State) (n : PortNo) (q : Port) :
    (s.changePort n q).ports = s.ports.set n q := by simp [State.changePort]

theorem changePort_same (s : State) (n : PortNo) (q : Port) :
    (s.changePort n q).ports[n] = q := by rw [ports_changePort, set_get_same]

theorem changePort_other (s : State) {n m : PortNo} (q : Port) (h : m ≠ n) :
    (s.changePort n q).ports[m] = s.ports[m] := by simp only [ports_changePort, set_get_ne _ _ h]

theorem ref_changePort (s : State) (n : PortNo) (q : Port) :
    (s.changePort n q).ref =
      if s.ports[n].aligned = true ∧ q.aligned = false ∧ s.ref.selection = .port n then s.ref.lose
      else s.ref := by simp [State.changePort]

/-- The postings of a port's change, in their order. -/
theorem attention_changePort (s : State) (n : PortNo) (q : Port) :
    (s.changePort n q).attention =
      (((s.postIf (s.ports[n].sourceDefect != q.sourceDefect) (.port n) .portDefect).postIf
        (s.ports[n].maint.farAlarm != q.maint.farAlarm) (.port n) .farAlarm).postIf
        (s.ports[n].maint.loop != q.maint.loop) (.port n) .loop).attention := by
  simp only [State.changePort, State.postIf]
  split <;> split <;> split <;> rfl

/-- A port's change reaches the ports, the reference and the list alone. -/
theorem changePort_frame (s : State) (n : PortNo) (q : Port) :
    s.changePort n q = { s with ports := s.ports.set n q, ref := (s.changePort n q).ref,
                                attention := (s.changePort n q).attention } := by
  simp only [State.changePort, State.postIf]
  split <;> split <;> split <;> rfl

/-- A change that moves neither the source defect, the far alarm, the loop nor the alignment changes
the port alone. -/
theorem changePort_quiet (s : State) (n : PortNo) (q : Port)
    (hd : q.sourceDefect = s.ports[n].sourceDefect) (hf : q.maint.farAlarm = s.ports[n].maint.farAlarm)
    (hl : q.maint.loop = s.ports[n].maint.loop) (ha : q.aligned = s.ports[n].aligned) :
    s.changePort n q = { s with ports := s.ports.set n q } := by
  have hr : ¬ (s.ports[n].aligned = true ∧ q.aligned = false ∧ s.ref.selection = .port n) := by
    rw [ha]; rintro ⟨h1, h2, _⟩; rw [h1] at h2; cases h2
  simp only [State.changePort, State.postIf, hd, hf, hl, if_neg hr, bne_self_eq_false,
    Bool.false_eq_true, if_false]

theorem changePort_self (s : State) (n : PortNo) : s.changePort n s.ports[n] = s := by
  rw [changePort_quiet s n _ rfl rfl rfl rfl, set_get_self]

/-! ### Records, contexts and selections -/

theorem contextOf_eq_some {s : State} {r : Record} {k : Nat} {c : Context} :
    s.contextOf r = some (k, c) ↔ r.context = some k ∧ s.contexts.get k = some c := by
  unfold State.contextOf
  split
  · rename_i j hj
    simp only [hj, Option.map_eq_some_iff, Prod.mk.injEq, Option.some.injEq]
    constructor
    · rintro ⟨a, h1, rfl, rfl⟩; exact ⟨rfl, h1⟩
    · rintro ⟨rfl, h⟩; exact ⟨c, h, rfl, rfl⟩
  · rename_i h; simp [h]

theorem get_markPending (s : State) (id j : Nat) :
    (s.markPending id).records.get j =
      if j = id then (s.records.get id).map fun r => { r with pending := true } else s.records.get j := by
  unfold State.markPending
  split
  · rename_i r hr
    change (s.records.put id _).get j = _
    rw [Table.get_put, hr]; rfl
  · rename_i hr; split
    · rename_i h; rw [h, hr]; rfl
    · rfl

/-- A context's step that leaves the selected source: the context alone. -/
theorem commitContext_same {s : State} {id k : Nat} {b a : Context} (h : b.selected = a.selected) :
    s.commitContext id k b a = { s with contexts := s.contexts.put k a } := by simp [State.commitContext, h]

/-- A context's step that changes it: the switch, the pending record and the posting (R131). -/
theorem commitContext_switch {s : State} {id k : Nat} {b a : Context} (h : b.selected ≠ a.selected) :
    s.commitContext id k b a = { s with
      contexts := s.contexts.put k { a with switches := satSucc Config.counterMax b.switches },
      records := (s.markPending id).records,
      attention := postTo s.attention (.record id) .select } := by
  simp only [State.commitContext, if_neg h, State.post, State.markPending]
  split <;> rfl

theorem get_setSelections (t : Table Selection) (sel : Selection) (ks : List Nat) (j : Nat) :
    ((setSelections t sel ks).get j).getD .idle = if j ∈ ks then sel else (t.get j).getD .idle := by
  unfold setSelections
  split
  · rw [Table.get_delKeys]; split <;> rfl
  · rw [Table.get_putKeys]; split <;> rfl
  · rw [Table.get_putKeys]; split <;> rfl

/-! ### The request checks -/

theorem onRecord_range {id : Half} {act : Nat → Record → State → Answer × State} {s : State}
    (h : 512 ≤ id.toNat) : onRecord id act s = (.bare .badParam, s) := if_pos h

theorem onRecord_none {id : Half} {act : Nat → Record → State → Answer × State} {s : State}
    (h : id.toNat < 512) (hr : s.records.get id.toNat = none) :
    onRecord id act s = (.bare .notFound, s) := by
  have : ¬ Config.records ≤ id.toNat := by simpa using h
  simp only [onRecord, if_neg this, hr]

theorem onRecord_some {id : Half} {act : Nat → Record → State → Answer × State} {s : State} {r : Record}
    (h : id.toNat < 512) (hr : s.records.get id.toNat = some r) :
    onRecord id act s = act id.toNat r s := by
  have : ¬ Config.records ≤ id.toNat := by simpa using h
  simp only [onRecord, if_neg this, hr]

theorem onRevision_some {id : Half} {act : Nat → Record → State → Answer × State} {s : State}
    {r : Record} {expected : Byte} (h : id.toNat < 512) (hr : s.records.get id.toNat = some r) :
    onRevision id expected act s =
      if r.revision = expected then act id.toNat r s else (.recordRefusal .stale r, s) :=
  onRecord_some h hr

theorem portNo_some {b : Byte} {n : PortNo} : portNo b = some n ↔ n.val = b.toNat := by
  unfold portNo
  split
  · simp only [Option.some.injEq, Fin.ext_iff, eq_comm]
  · rename_i h; constructor
    · simp
    · intro hn; exact absurd (hn ▸ n.isLt) h

theorem portNo_none {b : Byte} : portNo b = none ↔ 16 ≤ b.toNat := by
  unfold portNo; split <;> simp <;> omega

theorem onPort_some {b : Byte} {n : PortNo} (act : PortNo → State → Answer × State) (s : State)
    (h : n.val = b.toNat) : onPort b act s = act n s := by simp [onPort, portNo_some.mpr h]

theorem onPort_none {b : Byte} (act : PortNo → State → Answer × State) (s : State)
    (h : 16 ≤ b.toNat) : onPort b act s = (.bare .badParam, s) := by simp [onPort, portNo_none.mpr h]

/-- The first held triple in holding order (R61). -/
theorem firstHeld_split {map : Table Nat} {before after : List Triple} {t : Triple} {holder : Nat}
    (h : ∀ u ∈ before, map.get u.key = none) (ht : map.get t.key = some holder) :
    firstHeld map (before ++ t :: after) = some (t, holder) := by
  induction before with
  | nil => simp [firstHeld, ht]
  | cons u b ih =>
    have hu := h u (List.mem_cons_self ..)
    simp only [List.cons_append, firstHeld, hu]
    exact ih fun v hv => h v (List.mem_cons_of_mem _ hv)

theorem firstHeld_none {map : Table Nat} {l : List Triple} :
    firstHeld map l = none ↔ ∀ u ∈ l, map.get u.key = none := by
  induction l with
  | nil => simp [firstHeld]
  | cons u l ih =>
    simp only [firstHeld, List.forall_mem_cons]
    split
    · rename_i h; simp [h]
    · rename_i h; simp [h, ih]

end Sys2Proof.Machine
end

