-- ==== Sys2Proof/Laws/PerInstr.lean ====
section
/-! SUPPORT. Per-command lemmas. Family Encoding: the parameters of a well-formed request fit a frame
(R173), one lemma per constructor of Instr. -/

namespace Sys2Proof.Laws.Encoding

open Sys2Proof

/-- The parameter bytes of a well-formed request are at most 29; the other commands have no frame. -/
def Statement (i : Instr) : Prop :=
  i.wf = true → ∀ x, encodeParams i = some x → x.2.length ≤ Config.maxParams

theorem fits {i : Instr} {c : Byte} {b : List Byte} (he : encodeParams i = some (c, b))
    (hb : b.length ≤ Config.maxParams) : Statement i := by
  intro _ x hx
  rw [he] at hx
  cases hx
  exact hb

theorem frameless {i : Instr} (he : encodeParams i = none) : Statement i := by
  intro _ x hx
  rw [he] at hx
  cases hx

theorem length_optBytes (x : Option Byte) : (optBytes x).length ≤ 1 := by cases x <;> simp [optBytes]

theorem length_label (x : Option Label) : (x.elim [] wordBytes).length ≤ 4 := by
  cases x <;> simp [wordBytes]

theorem length_end (x : Option RawEnd) : (x.elim [] endBytes).length ≤ 2 := by
  cases x <;> simp [endBytes]

theorem length_ends (l : List RawEnd) : (l.flatMap endBytes).length = 2 * l.length := by
  induction l with
  | nil => rfl
  | cons e t ih => simp only [List.flatMap_cons, List.length_append, ih, List.length_cons]; simp [endBytes]; omega

theorem length_some (x : Option Byte) : (optBytes x).length = if x.isSome then 1 else 0 := by
  cases x <;> rfl

theorem length_profile (x : Option (Byte × Byte)) :
    (x.elim [] fun p => [p.1, p.2]).length = if x.isSome then 2 else 0 := by
  cases x <;> rfl

theorem connect (q : ConnectReq) : Statement (.connect q) := by
  intro h x hx
  simp only [encodeParams, Option.some.injEq] at hx
  subst hx
  have h : q.length ≤ 29 := of_decide_eq_true h
  unfold ConnectReq.length at h
  simp only [List.length_append, length_ends, length_some, length_profile, List.length_cons,
    List.length_nil, wordBytes]
  show _ ≤ 29
  omega

theorem modify (q : ModifyReq) : Statement (.modify q) := by
  refine fits rfl ?_
  have h1 := length_label q.label
  have h2 := length_optBytes q.code
  have h3 := length_optBytes q.holdOff
  have h4 := length_optBytes q.clearTime
  have h5 := length_end q.add
  have h6 := length_optBytes q.remove
  simp only [List.length_append, halfBytes, List.length_cons, List.length_nil]
  show _ ≤ 29
  omega

theorem retire (id : Half) (expected : Byte) : Statement (.retire id expected) := fits rfl (of_decide_eq_true rfl)

theorem hold (id : Half) (expected : Byte) : Statement (.hold id expected) := fits rfl (of_decide_eq_true rfl)

theorem release (id : Half) (expected : Byte) : Statement (.release id expected) := fits rfl (of_decide_eq_true rfl)

theorem query (id : Half) : Statement (.query id) := fits rfl (of_decide_eq_true rfl)

theorem find (port : Byte) (slot : Byte) (direction : Byte) : Statement (.find port slot direction) := fits rfl (of_decide_eq_true rfl)

theorem nextRecord (start : Half) : Statement (.nextRecord start) := fits rfl (of_decide_eq_true rfl)

theorem protect (q : ProtectReq) : Statement (.protect q) := by
  refine fits rfl ?_
  have h := length_optBytes q.wtr
  simp only [List.length_append, halfBytes, List.length_cons, List.length_nil]
  show _ ≤ 29
  omega

theorem unprotect (id : Half) (expected : Byte) : Statement (.unprotect id expected) := fits rfl (of_decide_eq_true rfl)

theorem switch (id : Half) (expected : Byte) (command : Byte) : Statement (.switch id expected command) := fits rfl (of_decide_eq_true rfl)

theorem portSet (q : PortSetReq) : Statement (.portSet q) := by
  refine fits rfl ?_
  have h1 := length_optBytes q.enable
  have h2 := length_optBytes q.idleCode
  have h3 := length_optBytes q.codeResponse
  have h4 := length_optBytes q.farSend
  have h5 := length_optBytes q.threshold
  have h6 := length_optBytes q.loopTimeout
  simp only [List.length_append, List.length_cons, List.length_nil]
  show _ ≤ 29
  omega

theorem portQuery (port : Byte) : Statement (.portQuery port) := fits rfl (of_decide_eq_true rfl)

theorem portClearCounts (port : Byte) : Statement (.portClearCounts port) := fits rfl (of_decide_eq_true rfl)

theorem portLoop (port : Byte) (command : Byte) : Statement (.portLoop port command) := fits rfl (of_decide_eq_true rfl)

theorem portSendCode (port : Byte) (code : Byte) (count : Half) : Statement (.portSendCode port code count) := fits rfl (of_decide_eq_true rfl)

theorem refSelect (selection : Byte) (port : Byte) : Statement (.refSelect selection port) := fits rfl (of_decide_eq_true rfl)

theorem attention : Statement .attention := fits rfl (of_decide_eq_true rfl)

theorem attnEnable (m : Option Byte) (s : Option Byte) : Statement (.attnEnable m s) := by
  refine fits rfl ?_
  have h1 := length_optBytes m
  have h2 := length_optBytes s
  simp only [List.length_append, List.length_cons, List.length_nil]
  show _ ≤ 29
  omega

theorem deviceQuery : Statement .deviceQuery := fits rfl (of_decide_eq_true rfl)

theorem deviceReset : Statement .deviceReset := fits rfl (of_decide_eq_true rfl)

theorem writeRequest (via : Via) (bits : BusPart (List Bool)) : Statement (.writeRequest via bits) := frameless rfl

theorem writeTransactionEnd (p : MPortId) : Statement (.writeTransactionEnd p) := frameless rfl

theorem readResponse (count : BusPart Nat) : Statement (.readResponse count) := frameless rfl

theorem readResponseEnd (p : MPortId) : Statement (.readResponseEnd p) := frameless rfl

theorem readStatus (count : BusPart Nat) : Statement (.readStatus count) := frameless rfl

theorem i2cRead (address : BitVec 7) (count : BusPart Nat) : Statement (.i2cRead address count) := frameless rfl

theorem handOver : Statement .handOver := frameless rfl

theorem responsePlaced : Statement .responsePlaced := frameless rfl

theorem rstAssert : Statement .rstAssert := frameless rfl

theorem rstRelease (release : Release) : Statement (.rstRelease release) := frameless rfl

theorem losAsserted (n : PortNo) : Statement (.losAsserted n) := frameless rfl

theorem losDeasserted (n : PortNo) : Statement (.losDeasserted n) := frameless rfl

theorem candidateFound (n : PortNo) (search : Examined) : Statement (.candidateFound n search) := frameless rfl

theorem verifyCheck (n : PortNo) (nibble symbol : List Bool) : Statement (.verifyCheck n nibble symbol) := frameless rfl

theorem alignedFrameReceived (n : PortNo) (moment : Nat) (nibble symbol : List Bool) :
    Statement (.alignedFrameReceived n moment nibble symbol) := frameless rfl

theorem frameWriteComplete (n : PortNo) (bits : List Bool) : Statement (.frameWriteComplete n bits) := frameless rfl

theorem allOnesPeriod (n : PortNo) (period : Examined) : Statement (.allOnesPeriod n period) := frameless rfl

theorem sfrMark (moment : Nat) : Statement (.sfrMark moment) := frameless rfl

theorem oscillatorFrameStart : Statement .oscillatorFrameStart := frameless rfl

theorem markWindowClose : Statement .markWindowClose := frameless rfl

theorem goodMarkTimeout : Statement .goodMarkTimeout := frameless rfl

theorem supervisionIntervalExpiry (turn : Turn) : Statement (.supervisionIntervalExpiry turn) := frameless rfl

theorem waitToRestoreExpiry (turn : Turn) : Statement (.waitToRestoreExpiry turn) := frameless rfl

theorem slipPeriodEnd (turn : Turn) : Statement (.slipPeriodEnd turn) := frameless rfl

theorem loopTimerExpiry (turn : Turn) : Statement (.loopTimerExpiry turn) := frameless rfl

theorem sendCodeBurstEnd (n : PortNo) : Statement (.sendCodeBurstEnd n) := frameless rfl

theorem slipBufferSlotWritten (n : PortNo) (bits : List Bool) : Statement (.slipBufferSlotWritten n bits) := frameless rfl

theorem lastOperationSet (address : BitVec 7) (data : List Byte) : Statement (.lastOperationSet address data) :=
  frameless rfl

end Sys2Proof.Laws.Encoding
end

