-- ==== Sys2Proof/Tests/Slice0.lean ====
section
/-! SUPPORT. The model's own tests: the well-formedness checks, request frames spelled from their
layouts, worked examples of the spec, and for every statement with hypotheses a state and operands that
meet them. -/

namespace Sys2Proof.Tests

open Sys2Proof Sys2Proof.Machine

set_option maxRecDepth 20000
-- One theorem after another: each kernel evaluation would otherwise hold a thread of its own.
set_option Elab.async false

/-! ### Well-formedness -/

/-- A CONNECT of ten destinations with code and profile takes 33 parameter bytes. -/
theorem test_wf_connect_too_long :
    Instr.wf (.connect ⟨2, 1, ⟨0, 1⟩, List.replicate 10 ⟨1, 1⟩, 0, some 0, some (1, 1)⟩) = false := by decide

theorem test_wf_connect_nine_ends :
    Instr.wf (.connect ⟨2, 1, ⟨0, 1⟩, List.replicate 9 ⟨1, 1⟩, 0, some 0, none⟩) = true := by decide

/-- The operation byte 0x01 is WRITE_REQUEST's. -/
theorem test_wf_last_operation : Instr.wf (.lastOperationSet 0x5C [0x01, 0x02]) = false ∧
    Instr.wf (.lastOperationSet 0x5C [0x02, 0x01]) = true := by decide

/-- Of a byte no more than its bits are received (R1, R2). -/
theorem test_wf_received_bits :
    Instr.wf (.verifyCheck 0 (List.replicate 5 true) []) = false ∧
    Instr.wf (.alignedFrameReceived 0 0 [] (List.replicate 5 true)) = false ∧
    Instr.wf (.alignedFrameReceived 0 0 (List.replicate 4 true) (List.replicate 4 true)) = true ∧
    Instr.wf (.slipBufferSlotWritten 0 (List.replicate 9 true)) = false ∧
    Instr.wf (.frameWriteComplete 0 (List.replicate 9 true)) = false ∧
    Instr.wf (.frameWriteComplete 0 (List.replicate 8 true)) = true := by decide

/-! ### Request frames (R188, R189) -/

theorem test_frame_connect : parseFrame
    [0x10, 0x21, 16, 0, 1, 2, 2, 4, 1, 6, 10, 0xA1, 0xB2, 0xC3, 0xD4, 3, 1, 0x99] = none ∧ parseFrame
    [0x10, 0x21, 14, 0, 1, 2, 2, 4, 1, 6, 10, 0xA1, 0xB2, 0xC3, 0xD4, 3, 1] =
      some (.connect ⟨0, 1, ⟨2, 4⟩, [⟨6, 10⟩], 0xA1B2C3D4, none, some (3, 1)⟩) := by decide

theorem test_frame_modify : parseFrame [0x11, 1, 7, 0x01, 0x02, 9, 0x12, 0x7F, 5, 21] =
    some (.modify ⟨0x0102, 9, none, some 0x7F, none, none, some ⟨5, 21⟩, none⟩) := by decide

theorem test_frame_protect : parseFrame [0x20, 1, 7, 0, 40, 0, 10, 1, 1, 255] =
    some (.protect ⟨40, 0, ⟨10, 1⟩, 1, some 255⟩) := by decide

theorem test_frame_port_set : parseFrame [0x30, 1, 4, 15, 0x21, 1, 6] =
    some (.portSet ⟨15, some 1, none, none, none, none, some 6⟩) := by decide

theorem test_frame_send_code : parseFrame [0x34, 1, 4, 0, 6, 0x01, 0x80] =
    some (.portSendCode 0 6 384) := by decide

/-- An unknown code, a declared length above 29 and a wrong length are BAD_REQUEST (R180). -/
theorem test_frame_bad : parseFrame [0x18, 0, 0] = none ∧ parseFrame [0x40, 0, 30] = none ∧
    parseFrame [0x50, 0, 1, 0] = none ∧ parseFrame [0x31, 0, 2, 15, 0] = none ∧
    parseFrame [0x41, 0, 1, 1] = none := by decide

/-- The bits not assigned of a mask are ignored (R188). -/
theorem test_frame_unassigned_bits : parseFrame [0x41, 0, 2, 0xFE, 1] =
    some (.attnEnable none (some 1)) := by decide

/-! ### Worked examples of the spec -/

/-- 06, a flickering source: hold-off 3, clear time 1, the defects of e1 to e12. -/
theorem test_flickering_source :
    ([true, true, false, true, true, true, true, false, true, false, false, false].foldl
        (fun (l : List Health) d => l ++ [(l.getLast?.getD Health.good).move 3 1 d]) []).map
      (fun h => (h.state.number.toNat, h.timer)) =
    [(1, 3), (1, 2), (0, 0), (1, 3), (1, 2), (1, 1), (2, 0), (3, 10), (2, 0), (3, 10), (3, 9), (3, 8)] := by
  decide

/-- 07, both sources of a non-revertive record fail: the four steps. -/
theorem test_both_sources_fail :
    let c0 := newContext 40 .nonRevertive none
    let c1 := c0.takeFails .after true false none (some true)
    let c2 := c1.takeFails .after true true (some true) none
    let c3 := c2.takeFails .after false true none (some false)
    let c4 := c3.takeFails .after false false (some false) none
    [c1, c2, c3, c4].map (fun c => (c.request, c.selected)) =
      [(.failWorking, .standby), (.failStandby, .working), (.failStandby, .working), (.none, .working)] := by
  decide

/-- 07, commands and a failure on one record: steps 1 to 7. -/
theorem test_commands_and_a_failure :
    let c0 := newContext 41 .revertive (some 1)
    (do
      let c1 ← c0.command false false .forceStandby
      guard (c1.command false false .manualWorking = none)
      let c3 := c1.takeFails .after true false none (some true)
      let c4 ← c3.command true false .clear
      let c5 := c4.takeFails .after false false none (some false)
      let c6 ← c5.command false false .manualWorking
      let c7 ← c6.command false false .clear
      some ([c1, c3, c4, c5, c6, c7].map fun c => (c.request, c.selected, c.wtrLeft))) =
    some [(.forceStandby, .standby, 0), (.forceStandby, .standby, 0), (.failWorking, .standby, 0),
      (.restoreWait, .standby, 80000), (.manualWorking, .working, 0), (.none, .working, 0)] := by decide

/-- 04, the three checks of CONNECT: the four requests. -/
theorem test_three_checks_of_connect :
    let map : Table Nat := Table.putKeys [] ([⟨1, 5, .rx⟩, ⟨1, 6, .rx⟩, ⟨3, 9, .tx⟩, ⟨3, 10, .tx⟩].map
      Triple.key) 2
    let s : State := { State.reset with
      slotMap := map, records := Table.putKeys [] [0, 1, 2, 3] (newRecord ⟨0, 2, ⟨1, 5⟩, [⟨3, 9⟩], 0, none,
        none⟩ ⟨.simplex, 2, ⟨1, 5⟩, [⟨3, 9⟩]⟩) }
    let ask (source : RawEnd) (dests : List RawEnd) := doConnect ⟨2, 2, source, dests, 0, none, none⟩ s
    (ask ⟨1, 35⟩ [⟨3, 12⟩, ⟨4, 20⟩]).1 = ⟨.badParam, []⟩ ∧
    (ask ⟨1, 8⟩ [⟨3, 9⟩, ⟨3, 10⟩]).1 = ⟨.badParam, []⟩ ∧
    (ask ⟨1, 8⟩ [⟨3, 9⟩, ⟨4, 20⟩]).1 = ⟨.slotTaken, [3, 9, 1, 0, 2]⟩ ∧
    (ask ⟨1, 8⟩ [⟨3, 12⟩, ⟨4, 20⟩]).1 = ⟨.ok, [0, 4, 1, 0]⟩ ∧
    (ask ⟨1, 8⟩ [⟨3, 12⟩, ⟨4, 20⟩]).2.slotMap.length = 10 := by decide +kernel

/-- 01, a line fault and its ranking: the source defects of steps 3 to 6, and the sent symbol. -/
theorem test_line_fault_ranking :
    ([⟨false, false, false, true, false⟩, ⟨false, true, false, true, false⟩,
      ⟨false, false, true, true, false⟩, ⟨false, false, false, false, false⟩].map fun d : Defects =>
        (d.source.number.toNat, d.source.sendsFarAlarm)) =
      [(2, true), (4, true), (3, true), (0, false)] := by decide

/-- 09, postings and fetches: the list after step 4, and a merge that keeps its place. -/
theorem test_postings_merge :
    let l := [(Subject.port 2, Change.portDefect), (.record 22, .state), (.record 9, .health),
      (.record 15, .health), (.record 15, .select), (.port 2, .portDefect)].foldl
        (fun l p => postTo l p.1 p.2) []
    l.map Entry.subject = [.port 2, .record 22, .record 9, .record 15] ∧
    l.map (fun e => e.summary.recordByte + 16 * e.summary.portByte) = [16, 4, 1, 3] := by decide

/-- 10, two processors, one executor: a waiting QUERY is aborted with its echoes. -/
theorem test_abort : ({ MPort.powerOn with txn := .waiting, request := [0x15, 0x23, 2, 0, 9] } :
    MPort).abort.response = [0x15, 0x23, 0x0B, 0] := by decide

/-! ### Bits (R1 to R4, R27, R103, R171) -/

theorem test_byte_bits : byteBits 0xB4 = [true, false, true, true, false, true, false, false] ∧
    bitsByte [true, false, true, true, false, true, false, false] = 0xB4 := by decide

/-- 01, acquiring alignment: slot 17 holds 0xB4 at first, so its bits are the first match; the nibble of
slot 0 is the first one from a place after them. -/
theorem test_acquiring_alignment :
    let bits := slotsBits ((0xBE : Byte) :: (List.replicate 16 0 ++ 0xB4 :: List.replicate 18 0))
    bits.length = 288 ∧ firstMatch (bits.drop 1) = some 135 ∧
    firstMatch (bits.drop 137 ++ bits) = some 151 ∧ firstMatch onesBits = none := by decide +kernel

/-- 02, loss and re-acquisition: a frame cut after 62.5 µs has sent slots 0 to 17. -/
theorem test_cut_frame :
    let p : Port := { Port.powerOn false with txPayload := some ((List.range 35).map (BitVec.ofNat 8 ·)) }
    let s : State := { State.reset with ref := { RefMonitor.powerOn with lastStart := 11875000 } }
    s.bitsSent 11937500 = 144 ∧ s.bitsSent 11875000 = 0 ∧ s.bitsSent 12000000 = 288 ∧
    (p.lastSent 144).drop 144 = slotsBits ((0xB0 : Byte) :: (List.range 17).map (BitVec.ofNat 8 ·)) := by
  decide +kernel

/-- 05, an INWARD loop: an ALIGNED framer at the place of its transmit frame sees its own overhead and
slots, whatever the command carries, and the slots of a frame that began one start ago come from the frame
sent last. -/
theorem test_inward_loop :
    let p : Port :=
      { Port.powerOn false with
        maint := { Maint.powerOn with loop := .inwardHost }, txSymbol := 6,
        txPayload := some ((List.range 35).map (BitVec.ofNat 8 ·)) }
    p.seen (byteBits 0) = byteBits 0xB6 ∧
    ({ p with rxFirst := some 288 } : Port).slotBits 35 (byteBits 0) = some (byteBits 34) ∧
    ({ p with txLast := slotsBits (List.replicate 36 0x5A), rxFirst := some 0 } : Port).slotBits 35
      (byteBits 0) = some (byteBits 0x5A) ∧
    p.slotBits 1 (byteBits 0) = none ∧
    ({ p with txPlace := 8 } : Port).seen (byteBits 0) = byteBits 0x22 := by decide +kernel

/-- An enabled port that sends slots of ones, its line searched before an INWARD loop is set. -/
def entering (bits : List Bool) : Port :=
  let p : Port := { Port.powerOn false with
    config := { (Port.powerOn false).config with enable := true },
    defects := ⟨false, false, false, true, false⟩ }
  let q := (p.candidate 0 bits).periodBits 0 bits
  q.setLoop .inwardHost

/-- R3, R153: the search compares windows of the last line bits and the first own bits. -/
theorem test_search_over_the_change_of_stream :
    (entering [false, true, false, true]).framer.recent = [true, false, true] ∧
    ((entering [false, true, false, true]).candidate 0 [false]).framer.state = .verify ∧
    ((entering [false, true, false, true]).candidate 0 [false]).framer.place = 1 := by decide +kernel

/-- R11, R153: 200 ones of the line and 88 of the port's own make an all-ones period. -/
theorem test_period_over_the_change_of_stream :
    (entering (List.replicate 200 true)).framer.period = ⟨some 200, 200, true⟩ ∧
    ((entering (List.replicate 200 true)).periodBits 0 (List.replicate 88 false)).framer.allOnesRun = 1 ∧
    ((entering (List.replicate 200 true)).periodBits 0 (List.replicate 88 false)).framer.period =
      ⟨some 0, 0, true⟩ := by decide +kernel

/-- R27: the mark at a bit of the port's own stream comes when exactly the bits before it are sent. -/
theorem test_bits_sent_at_own_marks : ∀ k < 288, State.reset.bitsSent (State.reset.bitMoment k) = k := by
  decide +kernel

/-- The state after some commands, where each takes a next one. -/
def after (s : State) (cs : List Instr) : Option State :=
  cs.foldlM (fun (s : State) c => match exec c s with
    | .next t => some t
    | .fault _ | .refused _ => none) s

/-- 10, SPI: the operation byte selects the operation, and the bits of an unfinished byte are discarded. -/
theorem test_spi_operations :
    spiTransaction (slotsBits [0x01, 0x40, 0, 0] ++ [true, false]) =
      [.writeRequest .spi (.begins (slotsBits [0x40, 0, 0] ++ [true, false])), .writeTransactionEnd .m] ∧
    spiTransaction (slotsBits [0x03] ++ [false]) = [.readStatus (.begins 1), .readResponseEnd .m] ∧
    spiTransaction (slotsBits [0x04, 1]) = [] := by decide +kernel

/-- The port M of a state with RST released. -/
def withPortM (x : MPort) : State := { State.reset with portM := x }

/-- R171: the bits of a status copy that is cut, FREEWHEEL and LOADING, then high impedance. -/
theorem test_spi_data_out :
    let bits := slotsBits [0x01, 0x40] ++ [false, false, false]
    ((after State.reset [.writeRequest .spi (.begins (bits.drop 8))]).bind fun t => t.spiDataOut (some bits)) =
      some ((slotsBits [0, 0x21, 0x21]).take 19) ∧
    ((after State.reset [.writeRequest .spi (.begins (bits.drop 8))]).bind fun t => t.spiDataOut none) = none ∧
    State.reset.spiDataOut (some (slotsBits [0x04, 1])) = some (List.replicate 16 false) ∧
    (after State.reset [.rstAssert]).map (·.spiDataOut (some bits)) = some none := by decide +kernel

/-- 10, R171, R177: a status copy that begins after the response is placed shows ANSWERED with REFUSED, and one
that began before it does not. -/
theorem test_status_copies_in_a_refused_write :
    ((after (withPortM { MPort.powerOn with txn := .executing })
      [.writeRequest .spi (.begins (slotsBits [1] ++ [false]))]).bind fun t =>
        after { t with portM := { t.portM with txn := .answered } }
          [.writeRequest .spi (.further (List.replicate 7 true ++ byteBits 2))]).map
      (fun t => (t.portM.sent, t.portM.request)) = some ([0x2B, 0x2B, 0x2C], []) := by decide +kernel

/-- R177: a status read cut in its first copy has taken it, and clears REFUSED; one of no bit has not. -/
theorem test_status_read_cut :
    (after (withPortM { MPort.powerOn with refused := true }) [.readStatus (.begins 1)]).map
      (·.portM.refused) = some false ∧
    (after (withPortM { MPort.powerOn with refused := true }) [.readStatus (.begins 0)]).map
      (·.portM.refused) = some true := by decide +kernel

/-- R176: a byte whose bits are still being shifted out does not count as sent. -/
theorem test_response_read_cut :
    [31, 32].map (fun k => (after (withPortM { MPort.powerOn with txn := .answered, response := [0x40, 0, 10, 0] })
      [.readResponse (.begins k), .readResponseEnd .m]).map (·.portM.txn)) =
        [some .answered, some .idle] := by decide +kernel

/-- R172, R175: port S acknowledges its own address and every data byte, those of a refused write and the ignored
ones too, and no other address. -/
theorem test_acknowledges :
    let busy : State := { State.reset with portS := { MPort.powerOn with txn := .waiting, request := [0x40, 0, 0] } }
    (after busy [.writeRequest (.i2c 0x5C) (.begins (byteBits 1)), .writeRequest (.i2c 0x5C) (.further
      (slotsBits [2, 3] ++ [true]))]).map (fun t => (t.acks, t.portS.refused, t.portS.request)) =
        some (5, true, [0x40, 0, 0]) ∧
    (after busy [.lastOperationSet 0x5C [0x07, 1, 2]]).map (fun t => (t.acks, t.lastOp)) =
      some (4, .readStatus) ∧
    (after busy [.lastOperationSet 0x5C []]).map (·.acks) = some 1 ∧
    (after busy [.lastOperationSet 0x5C [0x02], .i2cRead 0x5D (.begins 8)]).map
      (fun t => (t.acks, t.lastOp)) = some (0, .readResponse) ∧
    busy.acknowledges 0x5D = false := by decide +kernel

/-- R184: a transaction that was running as RST rose is not taken, and the next one on that bus is. -/
theorem test_transaction_over_release :
    let release : List Instr := [.rstAssert, .rstRelease ⟨1, true, true⟩]
    (after State.reset (release ++ [.lastOperationSet 0x5D [0x02], .writeRequest .spi (.begins (byteBits 1))])).map
      (fun t => (t.lastOp, t.acks, t.portM.txn, t.spiDataOut (some (byteBits 1)))) =
        some (.readStatus, 0, .idle, none) ∧
    (after State.reset (release ++ [.readResponseEnd .s, .lastOperationSet 0x5D [0x02], .writeTransactionEnd .m,
      .writeRequest .spi (.begins (byteBits 1))])).map (fun t => (t.lastOp, t.acks, t.portM.txn)) =
        some (.readResponse, 2, .loading) := by decide +kernel

/-! ### A sane state

P0 is ALIGNED with a frame being written, P1 has lost its signal, P2 is ALIGNED in a code loop with a
far alarm, P3 is in VERIFY in an INWARD loop, and P4 searches. Record 0 is protected and waits to restore,
1 is a HELD BRANCH with an entry JOINING and one LEAVING, 2 and 4 are RETIRING, 3 and 5 are STAGED. -/

def on (p : Port) : Port :=
  { p with config := { p.config with enable := true, codeResponse := true, loopTimeout := 1 },
           defects := { p.defects with off := false, unframed := true },
           slip := p.slip.recentre }

def alignedPort : Port := (on (Port.powerOn false)).toAligned

def sanePort : PortNo → Port
  | 0 => { alignedPort with slip := { alignedPort.slip with writing := some [1, 2] } }
  | 1 => ({ on (Port.powerOn true) with los := true }).loseSignal
  | 2 => { alignedPort with maint := { alignedPort.maint with
      loop := .returnCode, loopTimer := 1, farAlarm := true, absence := 2, runSym := some .quiet,
      runLength := 2 } }
  | 3 => { on (Port.powerOn true) with
      maint := { Maint.powerOn with loop := .inwardHost },
      framer := { (Port.powerOn true).framer with state := .verify, verified := 1 } }
  | 4 => on (Port.powerOn false)
  | _ => Port.powerOn false

def rec0 : Record :=
  { state := .active, kind := .simplex, width := 2, source := ⟨0, 1⟩, dests := [⟨⟨1, 1⟩, .inService⟩],
    standby := some ⟨2, 34⟩, leaving := none, label := 7, code := 0x7F, holdOff := 3, clearTime := 1,
    revision := 255, healthAB := ⟨.clear, 0⟩, healthBA := none, healthS := some ⟨.pendingFail, 1⟩,
    pending := true, context := some 0, handOverDue := false }

def rec1 : Record :=
  { rec0 with
    state := .held, kind := .branch, width := 1, source := ⟨0, 5⟩,
    dests := [⟨⟨1, 5⟩, .inService⟩, ⟨⟨2, 5⟩, .inService⟩, ⟨⟨3, 5⟩, .joining⟩, ⟨⟨3, 6⟩, .leaving⟩],
    standby := none,
    healthS := none, pending := true, context := none }

def rec2 : Record :=
  { rec1 with
    state := .retiring, kind := .duplex, source := ⟨0, 10⟩, dests := [⟨⟨1, 10⟩, .inService⟩],
    healthBA := some ⟨.failed, 0⟩ }

def rec3 : Record :=
  { rec1 with
    state := .staged, kind := .simplex, source := ⟨3, 20⟩, dests := [⟨⟨3, 21⟩, .inService⟩] }

def rec4 : Record :=
  { rec0 with
    state := .retiring, source := ⟨2, 1⟩, dests := [⟨⟨3, 1⟩, .inService⟩], standby := some ⟨3, 34⟩,
    context := some 1 }

def rec5 : Record :=
  { rec3 with
    kind := .duplex, source := ⟨2, 10⟩, dests := [⟨⟨3, 10⟩, .inService⟩], healthBA := some ⟨.clear, 0⟩ }

def saneContext : Context :=
  { record := 0, mode := .revertive, wtrTime := 1, request := .restoreWait, selected := .standby,
    wtrLeft := 1, wtrMark := .plain, switches := 1 }

def otherContext : Context :=
  { record := 4, mode := .nonRevertive, wtrTime := 30, request := .none, selected := .standby,
    wtrLeft := 0, wtrMark := .plain, switches := 65535 }

def saneRecords : Table Record := [(0, rec0), (1, rec1), (2, rec2), (3, rec3), (4, rec4), (5, rec5)]

def sane : State :=
  { State.reset with
    ports := Vector.ofFn sanePort,
    ref := { RefMonitor.powerOn with selection := .port 0, state := .refOk },
    records := saneRecords,
    slotMap := saneRecords.foldl (fun m e => m.putKeys (e.2.triples.map Triple.key) e.1) [],
    selections := writeRecord { rec4 with state := .active } (some otherContext)
      (writeRecord { rec2 with state := .active } none (writeRecord rec0 (some saneContext) [])),
    contexts := [(0, saneContext), (1, otherContext)],
    attention := [⟨.record 0, ⟨true, true, false, false, false, false, false⟩⟩,
      ⟨.port 1, ⟨false, false, false, true, false, false, false⟩⟩],
    interval := { count := 79, expiry := .idle }, slipPeriod := { count := 7999, expiry := .idle } }

theorem sane_ports : sane.PortsInv := by
  intro n
  refine ⟨⟨?_, ?_, ?_, ?_, ?_, ?_, ?_, ?_, ?_, ?_, ?_, ?_, ?_, ?_⟩,
    ⟨?_, ?_, ?_, ?_, ?_, ?_, ?_, ?_, ?_, ?_⟩,
    ⟨?_, ?_, ?_, ?_, ?_, ?_, ?_, ?_⟩⟩
  case refine_16 =>
    intro w hw
    have : ∀ n : PortNo, sane.ports[n].slip.writing = none ∨
        (n = 0 ∧ sane.ports[n].slip.writing = some [1, 2]) := by decide +kernel
    rcases this n with h | ⟨rfl, h⟩
    · rw [h] at hw; cases hw
    · rw [h] at hw; cases hw; decide +kernel
  case refine_22 =>
    have : ∀ n : PortNo, sane.ports[n].txPayload = none := by decide +kernel
    intro b hb; rw [this n] at hb; cases hb
  case refine_24 =>
    have : ∀ n : PortNo, sane.ports[n].rxFirst = none := by decide +kernel
    intro k hk; rw [this n] at hk; cases hk
  all_goals (revert n; decide +kernel)

theorem sane_ref : sane.RefInv := by
  refine ⟨by decide +kernel, by decide +kernel, by decide +kernel, by decide +kernel, fun n h _ => ?_⟩
  have h0 : RefSelection.port 0 = .port n := h
  cases h0
  decide +kernel

theorem sane_tables : sane.TablesWf :=
  ⟨by decide +kernel, by decide +kernel, by decide +kernel, by decide +kernel, by decide +kernel,
    by decide +kernel, by decide +kernel⟩

theorem rec0_sane : rec0.Inv := by
  refine ⟨by decide +kernel, ⟨by decide, by decide, ?_, ?_⟩, by decide +kernel, fun _ => ⟨_, rfl⟩,
    by decide, by decide, by decide, by decide, by decide, by decide +kernel, ?_, by decide, by decide⟩
  · intro e he; cases he; decide
  · intro e he; cases he
  · refine ⟨rfl, ?_, ?_⟩ <;> intro h hh <;> cases hh; exact ⟨by decide, by decide⟩

theorem rec1_sane : rec1.Inv := by
  refine ⟨by decide +kernel, ⟨by decide, by decide, ?_, ?_⟩, by decide +kernel, fun h => absurd rfl h,
    by decide, by decide, by decide, by decide, by decide, by decide +kernel, ?_, by decide, by decide⟩
  · intro e he; cases he
  · intro e he; cases he
  · refine ⟨rfl, ?_, ?_⟩ <;> intro h hh <;> cases hh

theorem rec2_sane : rec2.Inv := by
  refine ⟨by decide +kernel, ⟨by decide, by decide, ?_, ?_⟩, by decide +kernel, fun _ => ⟨_, rfl⟩,
    by decide, by decide, by decide, by decide, by decide, by decide +kernel, ?_, by decide, by decide⟩
  · intro e he; cases he
  · intro e he; cases he
  · refine ⟨rfl, ?_, ?_⟩ <;> intro h hh <;> cases hh; rfl

theorem rec3_sane : rec3.Inv := by
  refine ⟨by decide +kernel, ⟨by decide, by decide, ?_, ?_⟩, by decide +kernel, fun _ => ⟨_, rfl⟩,
    by decide, by decide, by decide, by decide, by decide, by decide +kernel, ?_, ?_, by decide⟩
  · intro e he; cases he
  · intro e he; cases he
  · refine ⟨rfl, ?_, ?_⟩ <;> intro h hh <;> cases hh
  · refine fun _ => ⟨rfl, ?_, ?_⟩ <;> intro h hh <;> cases hh

theorem rec4_sane : rec4.Inv := by
  refine ⟨by decide +kernel, ⟨by decide, by decide, ?_, ?_⟩, by decide +kernel, fun _ => ⟨_, rfl⟩,
    by decide, by decide, by decide, by decide, by decide, by decide +kernel, ?_, by decide, by decide⟩
  · intro e he; cases he; decide
  · intro e he; cases he
  · refine ⟨rfl, ?_, ?_⟩ <;> intro h hh <;> cases hh; exact ⟨by decide, by decide⟩

theorem rec5_sane : rec5.Inv := by
  refine ⟨by decide +kernel, ⟨by decide, by decide, ?_, ?_⟩, by decide +kernel, fun _ => ⟨_, rfl⟩,
    by decide, by decide, by decide, by decide, by decide, by decide +kernel, ?_, ?_, by decide⟩
  · intro e he; cases he
  · intro e he; cases he
  · refine ⟨rfl, ?_, ?_⟩ <;> intro h hh <;> cases hh; rfl
  · refine fun _ => ⟨rfl, ?_, ?_⟩ <;> intro h hh <;> cases hh; rfl

theorem sane_map : sane.MapInv := by
  refine ⟨sane_tables, ?_, by decide +kernel, ?_, ?_⟩
  · intro e he
    have h : e ∈ saneRecords := he
    simp only [saneRecords, List.mem_cons, List.not_mem_nil, or_false] at h
    rcases h with rfl | rfl | rfl | rfl | rfl | rfl
    · exact rec0_sane
    · exact rec1_sane
    · exact rec2_sane
    · exact rec3_sane
    · exact rec4_sane
    · exact rec5_sane
  · decide +kernel
  · have h : ∀ e ∈ sane.selections, ∃ x ∈ sane.records,
        sane.slotMap.get (16 * Config.frameSlots + e.1) = some x.1 ∧ sane.records.get x.1 = some x.2 ∧
          x.2.state ≠ .staged := by decide +kernel
    intro e he
    obtain ⟨x, _, h1, h2, h3⟩ := h e he
    exact ⟨x.1, x.2, h1, h2, h3⟩

theorem sane_bind : sane.BindInv := by
  refine ⟨sane_tables, ?_, ?_⟩
  · have h : ∀ e ∈ sane.records, e.2.context = none ∨
        (e.2.context = some 0 ∧ sane.contexts.get 0 = some saneContext ∧ saneContext.record = e.1) ∨
        (e.2.context = some 1 ∧ sane.contexts.get 1 = some otherContext ∧ otherContext.record = e.1) := by
      decide +kernel
    intro e he k hk
    rcases h e he with h | ⟨h1, h2, h3⟩ | ⟨h1, h2, h3⟩
    · rw [h] at hk; cases hk
    · rw [h1] at hk; cases hk; exact ⟨_, h2, h3⟩
    · rw [h1] at hk; cases hk; exact ⟨_, h2, h3⟩
  · intro e he
    have h : e ∈ [(0, saneContext), (1, otherContext)] := he
    simp only [List.mem_cons, List.not_mem_nil, or_false] at h
    rcases h with rfl | rfl
    · exact ⟨rec0, by decide +kernel, rfl⟩
    · exact ⟨rec4, by decide +kernel, rfl⟩

theorem sane_contexts : sane.ContextsSane := by
  intro e he
  have h : e ∈ [(0, saneContext), (1, otherContext)] := he
  simp only [List.mem_cons, List.not_mem_nil, or_false] at h
  rcases h with rfl | rfl <;>
    exact ⟨by decide, by decide, by decide, by decide, by decide, by decide, by decide⟩

theorem sane_list : sane.ListInv := by
  refine ⟨sane_tables, by decide +kernel, ?_⟩
  intro e he
  have h : e ∈ [⟨.record 0, ⟨true, true, false, false, false, false, false⟩⟩,
      ⟨.port 1, ⟨false, false, false, true, false, false, false⟩⟩] := he
  simp only [List.mem_cons, List.not_mem_nil, or_false] at h
  rcases h with rfl | rfl
  · exact ⟨by decide, rfl, rfl⟩
  · exact ⟨rfl, rfl⟩

/-! ### Every statement's hypotheses can be met

One theorem for each statement with hypotheses: states and operands that meet them, each clause's at a
boundary value. -/

/-- The execution of a request that port M has handed over. -/
def ask (i : Instr) : Execution := ⟨.m, 0x10, 0x21, some i, none⟩

/-- The state with a request handed over. -/
def asked (s : State) (i : Instr) : State :=
  { s with executor := some (ask i), portM := { s.portM with txn := .executing } }

theorem handed_asked (s : State) (i : Instr) : (asked s i).handed i (ask i) := ⟨rfl, rfl, rfl⟩

def withPort (s : State) (n : PortNo) (p : Port) : State := { s with ports := s.ports.set n p }

theorem witness_StepRunsFrontCommand :
    ({ sane with pending := [.handOver, .responsePlaced] } : State).pending =
      .handOver :: [.responsePlaced] ∧ sane.pending = [] := by decide

theorem witness_CommandOutOfPlaceChangesNothing :
    ((encodeParams (.query 0)).isSome = true ∧ ∀ x, ¬ sane.handed (.query 0) x) ∧
    sane.ports[(0 : PortNo)].framer.state ≠ .verify ∧ sane.ports[(1 : PortNo)].aligned = false ∧
    (sane.rst = true ∨ sane.ref.selection ≠ .external) ∧ sane.slipPeriod.ready 8000 .after = false ∧
    sane.interval.ready 80 .after = false := by
  refine ⟨⟨rfl, ?_⟩, by decide +kernel⟩
  rintro x ⟨h, _⟩
  cases h

theorem witness_RefusedRequestChangesNothing :
    ∃ s t x a, State.handed s (.query 512) x ∧ exec (.query 512) s = .next t ∧
      t.executor = some { x with answer := some a } ∧ a.status ≠ .ok :=
  ⟨asked sane (.query 512), _, ask (.query 512), ⟨.badParam, []⟩, handed_asked _ _, rfl, rfl, by decide⟩

theorem witness_RstAssertPutsPowerOnValues : ({ sane with rst := true } : State).rst = true := rfl

/-- P3 sending frames, in VERIFY at the first bit of its own transmit frame. -/
def fedVerify : Port :=
  { sanePort 3 with txSymbol := 0xE, txPayload := some (List.replicate 35 0x5A) }

/-- P3 ALIGNED on its own stream, a frame of it being written. -/
def fedPort : Port :=
  { fedVerify with
    framer := { fedVerify.framer with state := .aligned, verified := 0 },
    slip := { fedVerify.slip with writing := some [0xBE, 0x5A] }, rxFirst := some 288 }

def fed : State := withPort sane 3 fedVerify

/-- P4 searching from place 5 on, after the bits 101. -/
def searching : Port :=
  { sanePort 4 with framer := { (sanePort 4).framer with next := some 5, recent := [true, false, true] } }

/-- P3 searching its own stream, frames of which it sends, from place 281 on. -/
def fedSearch : Port :=
  { fedVerify with framer := { fedVerify.framer with state := .search, verified := 0, next := some 281 } }

theorem witness_CandidateIsVerified :
    (sane.ports[(3 : PortNo)].framer.state = .verify ∧
      4 ≤ (sane.ports[(3 : PortNo)].seen (byteBits 0xB0)).length ∧
      (sane.ports[(3 : PortNo)].seen (byteBits 0xB0)).take 4 ≠ [true, false, true, true] ∧
      fed.ports[(3 : PortNo)].framer.state = .verify ∧
      (fed.ports[(3 : PortNo)].seen (byteBits 0)).take 4 = [true, false, true, true] ∧
      fed.ports[(3 : PortNo)].framer.verified < 2 ∧
      (fed.ports[(3 : PortNo)].seen [false, false, false]).length < 4) ∧
    (searching.framer.state = .search ∧ searching.defects.off = false ∧ searching.defects.sigLost = false ∧
      searching.maint.loop ≠ .inwardHost ∧
      ((searching.framer.recent ++ [true]).drop 0).take 4 = [true, false, true, true]) ∧
    (∀ k, (([] : List Bool).drop k).take 4 ≠ [true, false, true, true]) ∧
    (fedSearch.framer.state = .search ∧ fedSearch.defects.off = false ∧ fedSearch.defects.sigLost = false ∧
      fedSearch.maint.loop = .inwardHost ∧
      (281 : Nat) = (fedSearch.framer.next.getD 0 - fedSearch.txPlace).val ∧
      firstMatch (((fedSearch.txLast ++ fedSearch.txBits).drop 281).take 11) = some 7) ∧
    sane.ports[(0 : PortNo)].framer.state ≠ .search ∧ sane.ports[(1 : PortNo)].defects.sigLost = true ∧
    sane.ports[(5 : PortNo)].defects.off = true :=
  ⟨by decide +kernel, by decide +kernel, fun k => by simp, by decide +kernel⟩

def third : State :=
  withPort sane 3 { fedVerify with framer := { fedVerify.framer with verified := 2 } }

theorem witness_ThirdMatchEntersAligned :
    third.ports[(3 : PortNo)].framer.state = .verify ∧ third.ports[(3 : PortNo)].MaintInv ∧
      (third.ports[(3 : PortNo)].seen (byteBits 0)).take 4 = [true, false, true, true] ∧
      2 ≤ third.ports[(3 : PortNo)].framer.verified ∧
      (third.ports[(3 : PortNo)].seen (byteBits 0)).length = 8 ∧
      (∀ i < 4, (third.ports[(3 : PortNo)].seen (byteBits 0))[4 + i]? =
        some ((0xE : Nibble).getLsbD (3 - i))) ∧
      (third.ports[(3 : PortNo)].seen [false, false, false, false]).length < 8 := by
  have hm : third.ports[(3 : PortNo)].maint = sane.ports[(3 : PortNo)].maint := by decide +kernel
  have hc : third.ports[(3 : PortNo)].config = sane.ports[(3 : PortNo)].config := by decide +kernel
  have ha : third.ports[(3 : PortNo)].aligned = sane.ports[(3 : PortNo)].aligned := by decide +kernel
  obtain ⟨a, b, c, d, e, f, g, h⟩ := (sane_ports 3).2.2
  exact ⟨by decide +kernel, ⟨hm ▸ a, hm ▸ b, hm ▸ ha ▸ c, hm ▸ d, hm ▸ e, hm ▸ f, hm ▸ hc ▸ g, hm ▸ h⟩,
    by decide +kernel⟩

theorem witness_FedBackFrameIsSeen :
    (fedPort.txPayload = some (List.replicate 35 0x5A) ∧
      (((0xB : Nibble) ++ fedPort.txSymbol) :: List.replicate 35 (0x5A : Byte))[35]? = some 0x5A) ∧
    (sanePort 3).txPayload = none ∧
    (sanePort 0).maint.loop ≠ .inwardHost ∧
    (fedPort.maint.loop = .inwardHost ∧ fedPort.framer.place = fedPort.txPlace ∧
      fedPort.framer.overhead = [] ∧ fedPort.txLast.length = 288 ∧ 8 ≤ (byteBits 0).length) := by
  decide +kernel

/-- A port with the first bits of an overhead byte received. -/
def begun (bits : List Bool) (p : Port) : Port :=
  { p with framer := { p.framer with overhead := bits } }

/-- An ALIGNED port that sends frames, three bits of an overhead byte and two of slot 2 received from the
line when an INWARD loop is set. -/
def changing : Port :=
  (begun [true, false, false] { fedPort with
    los := false, maint := { fedPort.maint with loop := .off },
    slip := { fedPort.slip with slot := [true, true] } }).setLoop .inwardHost

/-- R153: an overhead byte and a slot in progress at the change of stream have the line's bits and go on with
the port's own, which its transmit frame has there; where the loop ends within the byte the line's follow. -/
theorem test_byte_over_the_change_of_stream :
    changing.seen (List.replicate 5 false) = [true, false, false, true, true, true, true, false] ∧
    (changing.receive [false]).1.framer.erroredRun = 1 ∧
    (((changing.receive [false]).1).setLoop .off).seen (List.replicate 4 false) =
      [true, false, false, true, false, false, false, false] ∧
    changing.slotBits 2 (List.replicate 6 false) = some [true, true, false, true, true, false, true, false] ∧
    (changing.writeSlot (List.replicate 6 false)).slip.writing = some [0xBE, 0x5A, 0xDA] := by
  decide +kernel

/-- P2 with another errored run and other frames waiting. -/
def busyPort (run : Nat) (waiting : List Frame) : Port :=
  { sanePort 2 with
    framer := { (sanePort 2).framer with erroredRun := run },
    slip := { (sanePort 2).slip with waiting := waiting } }

theorem witness_AlignedNibbleIsJudged :
    sane.ports[(2 : PortNo)].aligned = true ∧ sane.ref.selection ≠ .port 2 ∧
    (sane.ports[(2 : PortNo)].framer.overhead.length < 4 ∧
      (sane.ports[(2 : PortNo)].seen (byteBits 0xB0)).take 4 = [true, false, true, true] ∧
      (sane.ports[(2 : PortNo)].seen [true, false, true]).length < 4) ∧
    (∀ p ∈ [busyPort 2 [], busyPort 3 []].map (begun [false, true, true]),
      p.aligned = true ∧ p.framer.overhead.length < 4 ∧ 4 ≤ (p.seen [false]).length ∧
        (p.seen [false]).take 4 ≠ [true, false, true, true]) ∧
    ((busyPort 2 []).framer.erroredRun < 3 ∧ 3 ≤ (busyPort 3 []).framer.erroredRun) ∧
    ((begun [true, true, true, true] (busyPort 3 [])).aligned = true ∧
      4 ≤ (begun [true, true, true, true] (busyPort 3 [])).framer.overhead.length ∧
      ((begun [true, true, true, true] (busyPort 3 [])).seen [true]).length < 8 ∧
      ((begun [true, true, true, true] (busyPort 3 [])).seen (byteBits 0)).length = 8) := by decide +kernel

theorem witness_DeliveredFrameIsWrittenAndCounted :
    (sane.ports[(2 : PortNo)].aligned = true ∧ sane.ref.selection ≠ .port 2 ∧
      (sane.ports[(2 : PortNo)].seen (byteBits 0xB0)).take 4 = [true, false, true, true] ∧
      (sane.ports[(2 : PortNo)].seen (byteBits 0xB0)).length = 8 ∧
      (∀ i < 4, (sane.ports[(2 : PortNo)].seen (byteBits 0xB0))[4 + i]? =
        some ((0 : Nibble).getLsbD (3 - i))) ∧
      sane.ports[(2 : PortNo)].framer.overhead.length < 4 ∧
      sane.ports[(2 : PortNo)].slip.waiting.length < 2 ∧ sane.ports[(2 : PortNo)].maint.farAlarm = true) ∧
    ((withPort sane 2 (busyPort 2 [Frame.ones, Frame.ones])).ports[(2 : PortNo)].aligned = true ∧
      (withPort sane 2 (busyPort 2 [Frame.ones, Frame.ones])).ports[(2 : PortNo)].framer.erroredRun < 3 ∧
      2 ≤ (withPort sane 2 (busyPort 2 [Frame.ones, Frame.ones])).ports[(2 : PortNo)].slip.waiting.length) ∧
    ((begun [true, false, true, true] (sanePort 2)).aligned = true ∧
      4 ≤ (begun [true, false, true, true] (sanePort 2)).framer.overhead.length ∧
      4 ≤ ((begun [true, false, true, true] (sanePort 2)).seen [true]).length ∧
      ((begun [true, false, true, true] (sanePort 2)).seen [true]).length < 8) ∧
    (alignedPort.aligned = true ∧ alignedPort.maint.farAlarm = false ∧
      alignedPort.maint.recognized = false ∧ alignedPort.maint.loop ≠ .inwardHost) ∧
    (fedPort.aligned = true ∧ fedPort.maint.loop = .inwardHost ∧ fedPort.seen (byteBits 0) = byteBits 0xBE ∧
      symOf 0xE = .farAlarm) := by decide +kernel

/-- An ALIGNED port one frame short of a recognition. -/
def shortOf (y : Sym) (l : LoopState) (response : Bool) : Port :=
  { alignedPort with
    config := { alignedPort.config with codeResponse := response },
    maint := { alignedPort.maint with runSym := some y, runLength := 63, loop := l } }

theorem witness_LoopUpIsRecognized : ∀ p ∈ [shortOf .loopUp .off true, shortOf .loopUp .returnHost true,
      shortOf .loopUp .off false],
    p.aligned = true ∧ sane.ref.selection ≠ .port 6 ∧ p.seen (byteBits 0xB6) = byteBits 0xB6 ∧
      (byteBits 0xB6).take 4 = [true, false, true, true] ∧
      (byteBits 0xB6).drop 4 = [false, true, true, false] ∧
      ((begun [true, true, true, true] p).seen [false, true, true, false]).drop 4 =
        [false, true, true, false] ∧
      p.maint.runSym = some .loopUp ∧ p.maint.runLength = 63 ∧ p.maint.recognized = false ∧
      (p.config.codeResponse = true ∧ p.maint.loop = .off ∨
        p.config.codeResponse = false ∨ p.maint.loop ≠ .off) := by decide +kernel

theorem witness_LoopDownIsRecognized : ∀ p ∈ [shortOf .loopDown .returnCode false,
      shortOf .loopDown .returnHost true],
    p.aligned = true ∧ sane.ref.selection ≠ .port 6 ∧ p.seen (byteBits 0xB9) = byteBits 0xB9 ∧
      (byteBits 0xB9).take 4 = [true, false, true, true] ∧
      (byteBits 0xB9).drop 4 = [true, false, false, true] ∧
      ((begun [true, true, true, true] p).seen [true, false, false, true]).drop 4 =
        [true, false, false, true] ∧
      p.maint.runSym = some .loopDown ∧ p.maint.runLength = 63 ∧ p.maint.recognized = false ∧
      (p.maint.loop = .returnCode ∨ p.maint.loop ≠ .returnCode) := by decide +kernel

theorem witness_SigLostFollowsLosPin :
    (sane.ports[(0 : PortNo)].config.enable = true ∧ sane.ports[(0 : PortNo)].maint.loop ≠ .inwardHost) ∧
    sane.ports[(5 : PortNo)].config.enable = false ∧ sane.ports[(3 : PortNo)].maint.loop = .inwardHost ∧
    sane.ref.selection ≠ .port 2 := by decide +kernel

/-- P4 two all-ones periods on, 200 ones of the third received. -/
def onesPort : Port :=
  { sanePort 4 with
    framer := { (sanePort 4).framer with allOnesRun := 2, period := ⟨some 200, 200, true⟩ } }

/-- The same on the port's own stream. -/
def onesInward : Port := { onesPort with maint := { onesPort.maint with loop := .inwardHost } }

theorem witness_AllOnesPeriodsRaiseAis :
    (onesPort.config.enable = true ∧ onesPort.aligned = false ∧ onesPort.maint.loop ≠ .inwardHost ∧
      (200 : Place) = onesPort.framer.period.next.getD 0 ∧
      List.replicate 88 true = (List.replicate 100 true).take (288 - onesPort.framer.period.count) ∧
      onesPort.framer.period.count + 88 = 288 ∧ onesPort.framer.period.count + 87 < 288) ∧
    (onesInward.config.enable = true ∧ onesInward.aligned = false ∧ onesInward.maint.loop = .inwardHost ∧
      ((onesInward.txLast ++ onesInward.txBits).drop (288 + 200)).take 88 = List.replicate 88 true) ∧
    sane.ports[(5 : PortNo)].config.enable = false ∧ sane.ports[(0 : PortNo)].aligned = true := by
  decide +kernel

/-- LOS_n changes P2's source defect and ends its far alarm; P3's level alone is taken; PORT_LOOP changes
P2's loop. -/
theorem witness_PortChangesArePosted :
    (∃ t, exec (.losAsserted 2) sane = .next t ∧
      t.ports[(2 : PortNo)].sourceDefect ≠ sane.ports[(2 : PortNo)].sourceDefect ∧
      t.ports[(2 : PortNo)].maint.farAlarm ≠ sane.ports[(2 : PortNo)].maint.farAlarm) ∧
    (∃ t, exec (.losDeasserted 3) sane = .next t ∧
      t.ports[(1 : PortNo)].sourceDefect = sane.ports[(1 : PortNo)].sourceDefect ∧
      ∃ e ∈ t.attention, e.subject = .port 1 ∧ e.summary.portDefect = true) ∧
    ∃ t, exec (.portLoop 2 0) (asked sane (.portLoop 2 0)) = .next t ∧
      t.ports[(2 : PortNo)].maint.loop ≠ (asked sane (.portLoop 2 0)).ports[(2 : PortNo)].maint.loop ∧
      (asked sane (.portLoop 2 0)).TablesWf :=
  ⟨⟨_, rfl, by decide +kernel⟩, ⟨_, rfl, by decide +kernel⟩, _, rfl, by decide +kernel,
    sane_tables.records, sane_tables.slotMap, sane_tables.selections, sane_tables.contexts,
    sane_tables.noIdle, sane_tables.ids, sane_tables.contextNumbers⟩

def lastSlotPort : Port :=
  { sanePort 0 with slip := { (sanePort 0).slip with writing := some (List.replicate 35 1) } }

theorem witness_SlotsAreWrittenInOrder :
    sane.ports[(0 : PortNo)].SlipInv ∧
    (sane.ports[(0 : PortNo)].slip.writing = some [1, 2] ∧
      sane.ports[(0 : PortNo)].maint.loop ≠ .inwardHost ∧ sane.ports[(0 : PortNo)].slip.slot = [] ∧
      (byteBits 0x5A).take (8 - ([] : List Bool).length) = byteBits 0x5A ∧
      (∀ i < 8, (byteBits 0x5A)[i]? = some ((0x5A : Byte).getLsbD (7 - i))) ∧
      ([true] ++ (byteBits 0x5A).take 6).length < 8) ∧
    (withPort sane 0 lastSlotPort).ports[(0 : PortNo)].slip.writing = some (List.replicate 35 1) ∧
    ((withPort sane 3 fedPort).ports[(3 : PortNo)].slip.writing = some [0xBE, 0x5A] ∧
      fedPort.maint.loop = .inwardHost ∧ fedPort.rxFirst = some 288 ∧ fedPort.txLast.length = 288 ∧
      fedPort.slip.slot = [] ∧ 8 ≤ (byteBits 0).length ∧
      fedPort.txPayload = some (List.replicate 35 0x5A) ∧
      (((fedPort.txLast ++ fedPort.txBits).drop (288 + 8 * 2)).take 8).length = 8) ∧
    fedVerify.rxFirst = none ∧ sane.ports[(1 : PortNo)].slip.writing = none :=
  ⟨(sane_ports 0).2.1, by decide +kernel, by decide +kernel, by decide +kernel, by decide +kernel,
    by decide +kernel⟩

theorem witness_FrameStartGivesReadFrame :
    (sane.ports[(0 : PortNo)].aligned = true ∧ sane.ports[(0 : PortNo)].slip.waiting = [Frame.ones]) ∧
    ((withPort sane 2 (busyPort 0 [])).ports[(2 : PortNo)].aligned = true ∧
      (withPort sane 2 (busyPort 0 [])).ports[(2 : PortNo)].slip.waiting = []) ∧
    sane.ports[(1 : PortNo)].aligned = false := by decide +kernel

theorem witness_SlipPeriodEndJudgesEveryPort :
    sane.slipPeriod.ready 8000 .before = true ∧
    ({ sane with slipPeriod := ⟨0, .due⟩ } : State).slipPeriod.ready 8000 .after = true ∧
    sane.ports[(5 : PortNo)].config.enable = false ∧ sane.ports[(0 : PortNo)].config.enable = true := by
  decide +kernel

/-- P3 ALIGNED on its own stream at its last bit, and selected. -/
def late (r : RefMonitor) : State :=
  { withPort sane 3 { fedPort with framer := { fedPort.framer with place := 287 } } with
    ref := { r with selection := .port 3, point := 1000000, lastStart := 1000000 } }

/-- The reference monitor in the next state of a command. -/
def nextRef (c : Instr) (s : State) : Option RefMonitor :=
  match exec c s with
  | .next t => some t.ref
  | .fault _ | .refused _ => none

/-- R23, R24: the mark of an overhead byte that goes on beyond the start comes before it, in the window. -/
theorem test_late_mark :
    (nextRef .oscillatorFrameStart (late { RefMonitor.powerOn with state := .refOk })).map
      (·.lastStart) = some 1124566 ∧
    (nextRef .oscillatorFrameStart (late RefMonitor.powerOn)).map (fun r => (r.lastStart, r.good)) =
      some (1125000, 1) := by decide +kernel

theorem witness_OscillatorMakesFrameStart :
    ((late RefMonitor.powerOn).ref.selection = .port 3 ∧
      (late RefMonitor.powerOn).ports[(3 : PortNo)].aligned = true ∧
      (late RefMonitor.powerOn).ports[(3 : PortNo)].framer.overhead = [] ∧
      (late RefMonitor.powerOn).ports[(3 : PortNo)].maint.loop = .inwardHost ∧
      288 < ((late RefMonitor.powerOn).ports[(3 : PortNo)].framer.place -
        (late RefMonitor.powerOn).ports[(3 : PortNo)].txPlace).val + 8) ∧
    sane.rst = false ∧ ({ sane with rst := true } : State).rst = true ∧
    (80 ≤ sane.interval.count + 1 ∧ sane.interval.expiry ≠ .taken) ∧
    (8000 ≤ sane.slipPeriod.count + 1 ∧ sane.slipPeriod.expiry ≠ .taken) := by decide +kernel

theorem witness_FrameStartBeginsTransmitFrame :
    sane.ports[(0 : PortNo)].config.enable = true ∧ sane.ports[(5 : PortNo)].config.enable = false ∧
    sane.ports[(0 : PortNo)].SlipInv :=
  ⟨by decide +kernel, by decide +kernel, (sane_ports 0).2.1⟩

theorem witness_FrameStartCountsTimers :
    sane.ports[(0 : PortNo)].maint.loopTimer = 0 ∧ sane.ports[(2 : PortNo)].maint.loopTimer = 1 ∧
    (∃ p : Port, (withPort sane 2 p).ports[(2 : PortNo)].maint.loopTimer = 2) ∧
    (∃ c, sane.frameStart.contexts.get 0 = some c ∧ sane.frameStart.inService c.record = true) ∧
    (saneContext.request = .restoreWait ∧ saneContext.wtrMark = .plain ∧ saneContext.wtrLeft ≤ 1) ∧
    otherContext.request ≠ .restoreWait :=
  ⟨by decide +kernel, by decide +kernel, ⟨{ sanePort 2 with maint := { Maint.powerOn with loopTimer := 2 } },
    by decide +kernel⟩, ⟨_, rfl, by decide +kernel⟩, by decide, by decide⟩

theorem witness_FrameStartCompletesChangesInFlight :
    sane.MapInv ∧ (∃ r, sane.frameStart.records.get 1 = some r) ∧
    (sane.records.get 1 = some rec1 ∧ rec1.pending = true ∧ rec1.state ≠ .retiring) ∧
    (sane.records.put 0 { rec0 with pending := false }).get 0 = some { rec0 with pending := false } ∧
    sane.records.get 6 = none ∧ sane.slotMap.get (Triple.key ⟨0, 35, .tx⟩) = none :=
  ⟨sane_map, ⟨_, rfl⟩, by decide +kernel, by decide +kernel, by decide +kernel, by decide +kernel⟩

theorem witness_RetiringRecordIsFreedAtFrameStart :
    sane.MapInv ∧ sane.BindInv ∧
    (sane.records.get 4 = some rec4 ∧ rec4.state = .retiring ∧ rec4.context = some 1) ∧
    (sane.records.get 2 = some rec2 ∧ rec2.state = .retiring ∧ rec2.kind = .duplex) :=
  ⟨sane_map, sane_bind, by decide +kernel⟩

theorem witness_FrameStartInstallsPendingRecord :
    sane.MapInv ∧ sane.BindInv ∧
    (sane.records.get 0 = some rec0 ∧ rec0.pending = true ∧ rec0.state ≠ .retiring) ∧
    (sane.records.get 1 = some rec1 ∧ rec1.pending = true ∧ rec1.state = .held ∧
      ∃ d ∈ rec1.dests, d.state = .leaving) ∧
    (sane.records.get 5 = some rec5 ∧ rec5.pending = true ∧ rec5.state = .staged ∧ rec5.kind = .duplex) :=
  ⟨sane_map, sane_bind, by decide +kernel⟩

theorem witness_SelectionsChangeAtFrameStartsAlone :
    ∃ t, exec (.alignedFrameReceived 2 0 [true, false, true, true] [false, false, false, false]) sane = .next t ∧
      sane.ref.selection ≠ .port 2 :=
  ⟨_, rfl, by decide⟩

/-- The reference monitor under EXTERNAL, in a state of its own. -/
def external (r : RefMonitor) : State := { sane with ref := { r with selection := .external } }

def okRef (opened : Bool) (missed : Nat) : RefMonitor :=
  { RefMonitor.powerOn with state := .refOk, point := 1000000, windowOpen := opened, missed := missed }

theorem witness_MarkInRefOk :
    ((external (okRef true 1)).ref.state = .refOk ∧ (external (okRef true 1)).ref.windowOpen = true ∧
      (external (okRef true 1)).ref.missed < 2) ∧
    2 ≤ (external (okRef true 2)).ref.missed ∧ (external RefMonitor.powerOn).ref.state = .freewheel ∧
    ((external (okRef false 0)).rst = false ∧ (external (okRef false 0)).ref.selection = .external ∧
      (external (okRef false 0)).ref.state = .refOk ∧ (external (okRef false 0)).ref.windowOpen = false ∧
      (external (okRef false 0)).ref.point + 124000 ≤ 1124000 ∧
      1124000 ≤ (external (okRef false 0)).ref.point + 125000 ∧
      1123999 < (external (okRef false 0)).ref.point + 124000) ∧
    ((external (okRef true 0)).ref.point ≤ 1001000 ∧ 1001000 ≤ (external (okRef true 0)).ref.point + 1000 ∧
      (external (okRef true 0)).ref.point + 1000 < 1001001) := by decide

theorem witness_MarkInFreewheel :
    ((external RefMonitor.powerOn).ref.state = .freewheel ∧ (external (okRef true 0)).ref.state = .refOk) ∧
    ((external RefMonitor.powerOn).rst = false ∧
      (external RefMonitor.powerOn).ref.selection = .external ∧
      (1 : Nat) = (match (external RefMonitor.powerOn).ref.lastMark with
        | none => 1
        | some l => if l + 124000 ≤ 5 ∧ 5 ≤ l + 126000 then
            (external RefMonitor.powerOn).ref.good + 1 else 1)) ∧
    (16 = (match (external { RefMonitor.powerOn with good := 15, lastMark := some 0 }).ref.lastMark with
      | none => 1
      | some l => if l + 124000 ≤ 126000 ∧ 126000 ≤ l + 126000 then
          (external { RefMonitor.powerOn with good := 15, lastMark := some 0 }).ref.good + 1 else 1)) := by
  decide

/-- P3, selected, in an INWARD loop at its own system frame start, one good mark short of re-acquiring. -/
def acquiring : State :=
  { withPort sane 3 fedPort with
    ref := { RefMonitor.powerOn with
      selection := .port 3, point := 1000000, lastStart := 1000000, good := 15, lastMark := some 1000000 } }

theorem witness_SelectedPortFrameIsMark :
    (sane.ports[(0 : PortNo)].aligned = true ∧ sane.ref.selection = .port 0 ∧
      sane.ports[(0 : PortNo)].maint.loop ≠ .inwardHost) ∧
    (fedPort.aligned = true ∧ fedPort.maint.loop = .inwardHost ∧
      (fedPort.framer.place - fedPort.txPlace).val + 8 ≤ 288) ∧
    288 < ((late RefMonitor.powerOn).ports[(3 : PortNo)].framer.place -
      (late RefMonitor.powerOn).ports[(3 : PortNo)].txPlace).val + min 8 (byteBits 0).length ∧
    (acquiring.ports[(3 : PortNo)].aligned = true ∧ acquiring.ref.selection = .port 3 ∧
      acquiring.ports[(3 : PortNo)].maint.loop = .inwardHost ∧
      (acquiring.ports[(3 : PortNo)].framer.place - acquiring.ports[(3 : PortNo)].txPlace).val = 0 ∧
      acquiring.ref.state = .freewheel ∧ 15 ≤ acquiring.ref.good ∧
      acquiring.ref.lastMark = some 1000000 ∧ 1000000 + 124000 ≤ acquiring.ref.lastStart + 125000) ∧
    ((begun [true] (sanePort 0)).aligned = true ∧ (begun [true] (sanePort 0)).framer.overhead ≠ []) := by
  decide +kernel

/-- R27: the re-acquiring mark of an INWARD loop and the oscillator's start fall together, and either is taken
first: with the mark first the oscillator's start is not made, one frame start instead of two. -/
theorem test_own_reacquiring_mark_and_oscillator_start :
    (after acquiring [.alignedFrameReceived 3 1125000 [true] []]).map
      (fun t => (t.ref.state, t.ref.lastStart, t.slipPeriod.count)) = some (.refOk, 1125000, 0) ∧
    (after { acquiring with slipPeriod := ⟨0, .idle⟩ } [.alignedFrameReceived 3 1125000 [true] []]).map
      (·.slipPeriod.count) = some 1 ∧
    (after { acquiring with slipPeriod := ⟨0, .idle⟩ }
      [.oscillatorFrameStart, .alignedFrameReceived 3 1125000 [true] []]).map
        (fun t => (t.ref.state, t.ref.lastStart, t.slipPeriod.count)) = some (.refOk, 1125000, 2) := by
  decide +kernel

/-- P0, the selected reference, with the last slot of a frame to come and no other waiting. -/
def lastSlot : State :=
  { withPort sane 0 { lastSlotPort with slip := { lastSlotPort.slip with waiting := [] } } with
    ref := { RefMonitor.powerOn with selection := .port 0, state := .refOk } }

/-- The slips of P0, its waiting frames and the slots written after some commands. -/
def slipsAfter (cs : List Instr) : Option (Nat × Nat × Option Nat) :=
  (after lastSlot cs).map fun t =>
      (t.ports[(0 : PortNo)].slip.slips, t.ports[(0 : PortNo)].slip.waiting.length,
        t.ports[(0 : PortNo)].slip.writing.map List.length)

/-- R32: the selected port's own mark makes a start at the moment its previous frame's last slot is written.
With the completion first the start takes that frame; with the start first it is a REPEAT and the frame
waits. -/
theorem test_start_and_completion_at_one_moment :
    slipsAfter [.frameWriteComplete 0 (byteBits 1),
      .alignedFrameReceived 0 125000 [true, false, true, true] [false, false, false, false]] =
        some (0, 0, some 0) ∧
    slipsAfter [.alignedFrameReceived 0 125000 [true] [], .frameWriteComplete 0 (byteBits 1),
      .alignedFrameReceived 0 125000 [false, true, true] [false, false, false, false]] =
        some (1, 1, some 0) := by decide +kernel

theorem witness_RefSelectStoresSelection :
    (asked sane (.refSelect 2 0)).handed (.refSelect 2 0) (ask (.refSelect 2 0)) ∧
    (asked sane (.refSelect 1 16)).handed (.refSelect 1 16) (ask (.refSelect 1 16)) ∧
    (asked sane (.refSelect 1 0)).handed (.refSelect 1 0) (ask (.refSelect 1 0)) ∧
    sane.ref.selection = .port 0 ∧ sane.ref.selection ≠ .external ∧ sane.ref.selection ≠ .port 15 :=
  ⟨handed_asked _ _, handed_asked _ _, handed_asked _ _, by decide⟩

theorem witness_RecordRequestsAreCheckedInOrder :
    (asked sane (.hold 512 255)).handed (.hold 512 255) (ask (.hold 512 255)) ∧
    512 ≤ (512 : Half).toNat ∧ (511 : Half).toNat < 512 ∧ sane.records.get 511 = none ∧
    sane.records.get 0 = some rec0 ∧ rec0.revision ≠ 0 ∧
    sane.records.get 4 = some rec4 ∧ rec4.revision = 255 ∧ rec4.state = .retiring :=
  ⟨handed_asked _ _, by decide +kernel⟩

def planOf (q : ConnectReq) (h : (connectPlan q).isSome = true) : ConnectPlan := (connectPlan q).get h

/-- A CONNECT to slots that record 0 does not hold, and one to slots it holds. -/
def freeConnect : ConnectReq := ⟨0, 35, ⟨6, 1⟩, [⟨7, 1⟩], 1, none, none⟩

def heldConnect : ConnectReq := ⟨0, 1, ⟨6, 1⟩, [⟨1, 2⟩], 1, none, none⟩

theorem witness_ConnectChecksItsParameters : ∃ p, connectPlan freeConnect = some p := ⟨_, rfl⟩

/-- The table full: every id holds a record. -/
def full : State := { State.reset with records := (List.range 512).map fun k => (k, rec3) }

theorem full_get (k : Nat) (h : k < 512) : full.records.get k ≠ none := by
  have hk : k ∈ Table.keys full.records := by
    simp only [full, Table.keys, List.map_map]
    exact List.mem_map.mpr ⟨k, List.mem_range.mpr h, rfl⟩
  exact Option.isSome_iff_ne_none.mp (Table.mem_keys.mp hk)

theorem witness_ConnectTakesLowestFreeId :
    (asked sane (.connect freeConnect)).handed (.connect freeConnect) (ask (.connect freeConnect)) ∧
    connectPlan ⟨3, 1, ⟨6, 1⟩, [⟨7, 1⟩], 1, none, none⟩ = none ∧
    (∃ p, connectPlan freeConnect = some p ∧
      (∀ u ∈ (newRecord freeConnect p).triples, sane.slotMap.get u.key = none) ∧
      (∀ u ∈ (newRecord freeConnect p).triples, full.slotMap.get u.key = none)) ∧
    (∃ p, connectPlan heldConnect = some p ∧
      (newRecord heldConnect p).triples = [⟨6, 1, .rx⟩] ++ ⟨1, 2, .tx⟩ :: [] ∧
      sane.slotMap.get (Triple.key ⟨6, 1, .rx⟩) = none ∧
      sane.slotMap.get (Triple.key ⟨1, 2, .tx⟩) = some 0) ∧
    (∀ k < 512, full.records.get k ≠ none) ∧
    (sane.records.get 6 = none ∧ ∀ k < 6, sane.records.get k ≠ none) :=
  ⟨handed_asked _ _, by decide, ⟨_, rfl, by decide +kernel, by decide +kernel⟩,
    ⟨_, rfl, by decide +kernel, by decide +kernel, by decide +kernel⟩, full_get, by decide +kernel⟩

def modifyOf (add : Option RawEnd) (remove : Option Byte) (label : Option Label) : ModifyReq :=
  ⟨1, 255, label, none, none, none, add, remove⟩

theorem witness_ModifyStoresItsParts :
    (∀ q ∈ [modifyOf none none none, modifyOf (some ⟨6, 1⟩) (some 0) none, modifyOf none none (some 9)],
      (asked sane (.modify q)).handed (.modify q) (ask (.modify q)) ∧ q.id.toNat < 512 ∧
        sane.records.get q.id.toNat = some rec1 ∧ rec1.revision = q.expected ∧ rec1.state ≠ .retiring) ∧
    (modifyOf none none (some 9)).label.isSome = true ∧ rec0.kind ≠ .branch :=
  ⟨by decide +kernel, by decide⟩

/-- Record 1 with three entries. -/
def shorter : Record := { rec1 with dests := rec1.dests.take 3 }

def shorterState : State := { sane with records := sane.records.put 1 shorter }

theorem witness_ModifyAddsAndRemovesDestinations :
    (∀ e ∈ [(⟨16, 1⟩ : RawEnd), ⟨6, 0⟩, ⟨6, 36⟩, ⟨6, 35⟩, ⟨1, 5⟩, ⟨1, 2⟩],
      (asked shorterState (.modify (modifyOf (some e) none none))).handed
        (.modify (modifyOf (some e) none none)) (ask (.modify (modifyOf (some e) none none)))) ∧
    (shorterState.records.get 1 = some shorter ∧ shorter.revision = 255 ∧ shorter.state ≠ .retiring ∧
      shorter.kind = .branch ∧ shorter.dests.length < 4 ∧ rec1.dests.length = 4) ∧
    ((⟨1, 5, .tx⟩ : Triple) ∈ shorter.triples ∧ (⟨6, 35, .tx⟩ : Triple) ∉ shorter.triples ∧
      shorterState.slotMap.get (Triple.key ⟨6, 35, .tx⟩) = none ∧
      (⟨1, 2, .tx⟩ : Triple) ∉ shorter.triples ∧
      shorterState.slotMap.get (Triple.key ⟨1, 2, .tx⟩) = some 0) ∧
    (∃ d, rec1.dests[0]? = some d ∧ d.state ≠ .leaving ∧
      2 ≤ ((rec1.dests.set 0 { d with state := .leaving }).filter fun d => d.state ≠ .leaving).length) ∧
    (∃ d, rec1.dests[3]? = some d ∧ d.state = .leaving) ∧ rec1.dests[4]? = none :=
  ⟨by decide +kernel, by decide +kernel, by decide +kernel, ⟨_, rfl, by decide, by decide⟩,
    ⟨_, rfl, rfl⟩, rfl⟩

theorem witness_RetireHoldAndReleaseMoveRecord :
    (∀ i ∈ [Instr.retire 3 255, .retire 0 255, .hold 0 255, .hold 1 255, .release 1 255, .release 0 255],
      (asked sane i).handed i (ask i)) ∧
    (sane.records.get 3 = some rec3 ∧ rec3.state = .staged ∧ rec3.revision = 255) ∧
    (sane.records.get 0 = some rec0 ∧ rec0.state = .active ∧ rec0.revision = 255) ∧
    (sane.records.get 1 = some rec1 ∧ rec1.state = .held ∧ rec1.revision = 255) := by decide +kernel

theorem witness_QueriesReportAndChangeNothing :
    (∀ i ∈ [Instr.query 512, .query 511, .query 0, .query 1, .portQuery 16, .portQuery 15, .deviceQuery],
      (asked sane i).handed i (ask i)) ∧
    sane.records.get 511 = none ∧ (sane.records.get 1 = some rec1 ∧ rec1.context = none) ∧
    (sane.records.get 0 = some rec0 ∧ rec0.context = some 0 ∧ sane.contexts.get 0 = some saneContext) := by
  decide +kernel

theorem witness_FindReportsHolder :
    (∀ i ∈ [Instr.find 16 1 0, .find 0 0 0, .find 0 36 0, .find 0 1 2, .find 0 35 0, .find 0 1 0],
      (asked sane i).handed i (ask i)) ∧
    sane.slotMap.get (Triple.key ⟨0, 35, .rx⟩) = none ∧
    (sane.slotMap.get (Triple.key ⟨0, 1, .rx⟩) = some 0 ∧ rec0.source.covers rec0.width 0 1 = true) ∧
    (rec0.source.covers rec0.width 2 35 = false ∧ rec0.standby = some ⟨2, 34⟩) ∧
    (rec0.dests = [] ++ ⟨⟨1, 1⟩, .inService⟩ :: [] ∧ (⟨1, 1⟩ : End).covers rec0.width 1 2 = true) ∧
    (rec2.kind = .duplex ∧ rec2.source.covers rec2.width 0 10 = true ∧
      rec2.source.covers rec2.width 1 10 = false ∧ rec2.dests = [⟨⟨1, 10⟩, .inService⟩]) ∧
    (Record.unprotected rec0).leaving = some ⟨2, 34⟩ := by decide +kernel

theorem witness_NextReturnsLowestNonFree :
    sane.TablesWf ∧ (asked sane (.nextRecord 512)).handed (.nextRecord 512) (ask (.nextRecord 512)) ∧
    ((5 : Half).toNat ≤ 5 ∧ sane.records.get 5 = some rec5) ∧
    ((6 : Half).toNat < 512 ∧ ∀ k, 6 ≤ k → sane.records.get k = none) := by
  refine ⟨sane_tables, handed_asked _ _, by decide +kernel, by decide, fun k hk => ?_⟩
  cases h : sane.records.get k with
  | none => rfl
  | some r =>
    have hle : ∀ e ∈ sane.records, e.1 < 6 := by decide +kernel
    have := hle _ (Table.get_some_mem h)
    omega

def protectOf (id : Half) (e : RawEnd) (wtr : Option Byte) : ProtectReq := ⟨id, 255, e, 1, wtr⟩

/-- Record 3 is unprotected and every context is bound. -/
def bound : State := { sane with contexts := (List.range 128).map fun k => (k, saneContext) }

theorem bound_get (k : Nat) (h : k < 128) : bound.contexts.get k ≠ none := by
  have hk : k ∈ Table.keys bound.contexts := by
    simp only [bound, Table.keys, List.map_map]
    exact List.mem_map.mpr ⟨k, List.mem_range.mpr h, rfl⟩
  exact Option.isSome_iff_ne_none.mp (Table.mem_keys.mp hk)

theorem witness_ProtectBindsAndUnprotectFreesContext :
    (∀ q ∈ [protectOf 4 ⟨6, 1⟩ none, protectOf 3 ⟨16, 1⟩ none, protectOf 3 ⟨6, 36⟩ none,
        protectOf 3 ⟨6, 1⟩ (some 0), protectOf 5 ⟨6, 1⟩ none, protectOf 3 ⟨3, 20⟩ none,
        protectOf 3 ⟨0, 1⟩ none, protectOf 3 ⟨15, 35⟩ (some 1)],
      (asked sane (.protect q)).handed (.protect q) (ask (.protect q)) ∧ q.id.toNat < 512) ∧
    (sane.records.get 4 = some rec4 ∧ rec4.state = .retiring ∧ rec4.revision = 255) ∧
    (sane.records.get 5 = some rec5 ∧ rec5.kind = .duplex ∧ rec5.context = none) ∧
    (sane.records.get 3 = some rec3 ∧ rec3.revision = 255 ∧ rec3.context = none ∧ rec3.leaving = none ∧
      rec3.width = 1 ∧ (⟨3, 20, .rx⟩ : Triple) ∈ rec3.triples ∧ (⟨0, 1, .rx⟩ : Triple) ∉ rec3.triples ∧
      sane.slotMap.get (Triple.key ⟨0, 1, .rx⟩) = some 0 ∧ (⟨15, 35, .rx⟩ : Triple) ∉ rec3.triples ∧
      sane.slotMap.get (Triple.key ⟨15, 35, .rx⟩) = none) ∧
    (∀ k < 128, bound.contexts.get k ≠ none) ∧
    (sane.contexts.get 2 = none ∧ ∀ j < 2, sane.contexts.get j ≠ none) ∧
    (asked sane (.unprotect 0 255)).handed (.unprotect 0 255) (ask (.unprotect 0 255)) ∧
    (sane.records.get 0 = some rec0 ∧ rec0.context = some 0 ∧ sane.contexts.get 0 = some saneContext) :=
  ⟨by decide +kernel, by decide +kernel, by decide +kernel, by decide +kernel, bound_get,
    by decide +kernel, handed_asked _ _, by decide +kernel⟩

/-- Of the commands 0 to 6 on record 0 in RESTORE_WAIT: 0 and 6 name none, CLEAR is refused, and
MANUAL_STANDBY keeps and HOLD_WORKING changes the selected source. -/
theorem witness_SwitchCommandsMoveContext :
    (∀ b ∈ [(0 : Byte), 1, 3, 5, 6], (asked sane (.switch 0 255 b)).handed (.switch 0 255 b)
      (ask (.switch 0 255 b))) ∧
    (sane.records.get 0 = some rec0 ∧ rec0.revision = 255 ∧ rec0.state ≠ .retiring ∧
      rec0.context = some 0 ∧ sane.contexts.get 0 = some saneContext ∧ rec0.standbyBad = false ∧
      saneContext.request = .restoreWait ∧ saneContext.selected = .standby) ∧
    (sane.records.get 3 = some rec3 ∧ rec3.context = none) := by decide +kernel

/-- The working source fails at this expiry: P0 has lost its signal. -/
def failing : State :=
  { withPort sane 0 ({ sanePort 0 with los := true }).loseSignal with
    records := sane.records.put 0 { rec0 with holdOff := 0 } }

theorem failing_bind : failing.BindInv := by
  refine ⟨⟨by decide +kernel, sane_tables.slotMap, sane_tables.selections, sane_tables.contexts,
    sane_tables.noIdle, by decide +kernel, sane_tables.contextNumbers⟩, ?_, ?_⟩
  · have h : ∀ e ∈ failing.records, e.2.context = none ∨
        (e.2.context = some 0 ∧ failing.contexts.get 0 = some saneContext ∧ saneContext.record = e.1) ∨
        (e.2.context = some 1 ∧ failing.contexts.get 1 = some otherContext ∧
          otherContext.record = e.1) := by decide +kernel
    intro e he k hk
    rcases h e he with h | ⟨h1, h2, h3⟩ | ⟨h1, h2, h3⟩
    · rw [h] at hk; cases hk
    · rw [h1] at hk; cases hk; exact ⟨_, h2, h3⟩
    · rw [h1] at hk; cases hk; exact ⟨_, h2, h3⟩
  · intro e he
    have h : e ∈ [(0, saneContext), (1, otherContext)] := he
    simp only [List.mem_cons, List.not_mem_nil, or_false] at h
    rcases h with rfl | rfl
    · exact ⟨{ rec0 with holdOff := 0 }, by decide +kernel, rfl⟩
    · exact ⟨rec4, by decide +kernel, rfl⟩

theorem witness_FailRequestsMoveContext :
    failing.BindInv ∧ failing.interval.ready 80 .before = true ∧
    failing.records.get 0 = some { rec0 with holdOff := 0 } ∧ rec0.state = .active ∧
    failing.contexts.get 0 = some saneContext ∧
    ∃ t r', exec (.supervisionIntervalExpiry .before) failing = .next t ∧
      t.records.get 0 = some r' ∧ r'.healthAB.bad = true ∧ rec0.healthAB.bad = false :=
  ⟨failing_bind, by decide, by decide +kernel, by decide, by decide +kernel, _, _, rfl, rfl,
    by decide +kernel, by decide⟩

theorem witness_WaitToRestoreExpiryReturnsToWorking :
    sane.BindInv ∧ (sane.records.get 0 = some rec0 ∧ rec0.state = .active ∧ rec0.context = some 0 ∧
      sane.contexts.get 0 = some saneContext ∧ saneContext.request = .restoreWait ∧
      saneContext.wtrLeft = 1 ∧ saneContext.wtrMark = .plain ∧ saneContext.selected = .standby) ∧
    (sane.records.get 4 = some rec4 ∧ sane.contexts.get 1 = some otherContext ∧
      otherContext.request ≠ .restoreWait) ∧ sane.records.get 6 = none ∧ sane.contexts.get 2 = none ∧
    (sane.records.get 1 = some rec1 ∧ rec1.context = none) :=
  ⟨sane_bind, by decide +kernel⟩

theorem witness_EvaluationMovesHealth :
    sane.BindInv ∧ sane.interval.ready 80 .before = true ∧
    (sane.records.get 0 = some rec0 ∧ rec0.state = .active ∧ rec0.healthS.isSome = true) ∧
    (sane.records.get 3 = some rec3 ∧ rec3.state = .staged) ∧
    (sane.records.get 2 = some rec2 ∧ rec2.healthBA.isSome = true) ∧ sane.records.get 6 = none :=
  ⟨sane_bind, by decide +kernel⟩

theorem witness_LoopTimerExpiryEndsCodeLoop :
    sane.ports[(2 : PortNo)].maint.loop = .returnCode ∧ sane.ports[(2 : PortNo)].maint.loopTimer = 1 ∧
    sane.ports[(2 : PortNo)].maint.loopMark = .plain ∧ sane.ports[(0 : PortNo)].maint.loop ≠ .returnCode ∧
    sane.ports[(0 : PortNo)].maint.burstLeft = 0 ∧
    (withPort sane 0 { sanePort 0 with maint := { Maint.powerOn with burstLeft := 1 } }).ports[(0 :
      PortNo)].maint.burstLeft ≠ 0 := by decide +kernel

theorem witness_LoopAndCodeRequestsSetPort :
    (∀ i ∈ [Instr.portLoop 16 0, .portLoop 0 3, .portLoop 15 0, .portLoop 0 0, .portLoop 2 1,
        .portLoop 0 2, .portLoop 3 0, .portSendCode 16 6 0, .portSendCode 0 7 0, .portSendCode 15 9 1,
        .portSendCode 0 6 0, .portSendCode 0 9 65535],
      (asked sane i).handed i (ask i)) ∧
    sane.ports[(15 : PortNo)].config.enable = false ∧
    (sane.ports[(0 : PortNo)].config.enable = true ∧ sane.ports[(0 : PortNo)].maint.loop = .off ∧
      sane.ports[(0 : PortNo)].maint.burstLeft = 0) ∧
    (sane.ports[(2 : PortNo)].config.enable = true ∧ sane.ports[(2 : PortNo)].maint.loop ≠ .returnHost) ∧
    (sane.ports[(3 : PortNo)].config.enable = true ∧ sane.ports[(3 : PortNo)].maint.loop = .inwardHost) := by
  decide +kernel

def portSetOf (port : Byte) (enable threshold : Option Byte) : PortSetReq :=
  ⟨port, enable, none, none, none, threshold, none⟩

theorem witness_PortSetStoresFieldsThenEnables :
    (∀ q ∈ [portSetOf 16 (some 1) none, portSetOf 0 none none, portSetOf 0 (some 2) none,
        portSetOf 0 none (some 0), portSetOf 0 none (some 255), portSetOf 15 (some 1) none,
        portSetOf 0 (some 0) none],
      (asked sane (.portSet q)).handed (.portSet q) (ask (.portSet q))) ∧
    (sane.ports[(15 : PortNo)].config.enable = false ∧ sane.ports[(15 : PortNo)].LineInv ∧
      sane.ports[(15 : PortNo)].MaintInv) ∧
    (sane.ports[(0 : PortNo)].config.enable = true ∧ sane.ref.selection = .port 0 ∧ sane.RefInv) :=
  ⟨by decide +kernel, ⟨by decide +kernel, (sane_ports 15).1, (sane_ports 15).2.2⟩,
    by decide +kernel, rfl, sane_ref⟩

theorem witness_PortClearCountsReturnsAndZeroes :
    (asked sane (.portClearCounts 16)).handed (.portClearCounts 16) (ask (.portClearCounts 16)) ∧
    (asked sane (.portClearCounts 15)).handed (.portClearCounts 15) (ask (.portClearCounts 15)) ∧
    (15 : PortNo).val = (15 : Byte).toNat := ⟨handed_asked _ _, handed_asked _ _, by decide⟩

theorem witness_AttentionFetchesHeadEntry :
    (asked sane .attention).handed .attention (ask .attention) ∧ State.reset.attention = [] ∧
    (∃ id m rest, sane.attention = ⟨.record id, m⟩ :: rest) ∧
    (∃ n m rest, sane.attention.tail = ⟨.port n, m⟩ :: rest) :=
  ⟨handed_asked _ _, rfl, ⟨_, _, _, rfl⟩, ⟨_, _, _, rfl⟩⟩

theorem witness_AttentionLinesFollowListAndEnables :
    (∀ i ∈ [Instr.attnEnable none none, .attnEnable (some 2) none, .attnEnable (some 1) none,
        .attnEnable none (some 0), .deviceQuery], (asked sane i).handed i (ask i)) ∧
    (∃ t, exec .rstAssert sane = .next t) ∧ ∃ t, exec .deviceReset (asked sane .deviceReset) = .next t :=
  ⟨by decide +kernel, ⟨_, rfl⟩, ⟨_, rfl⟩⟩

/-- A DEVICE_RESET in execution for port M while port S waits. -/
def resetting : State :=
  { asked sane .deviceReset with
    portS := { MPort.powerOn with txn := .waiting, request := [0x15, 0x23, 2, 0, 0] } }

theorem witness_DeviceResetEmptiesTables :
    resetting.handed .deviceReset (ask .deviceReset) ∧ (resetting.mport .s).txn = .waiting ∧
    MPortId.s ≠ (ask .deviceReset).port ∧
    (resetting.ports[(3 : PortNo)].maint.loop = .inwardHost ∧
      resetting.ports[(3 : PortNo)].config.enable = true) ∧
    resetting.ports[(2 : PortNo)].maint.loop ≠ .inwardHost ∧
    ∃ t, exec .deviceReset (asked (withPort (late { RefMonitor.powerOn with state := .refOk }) 3
        { fedPort with los := true }) .deviceReset) = .next t ∧
      fedPort.aligned = true ∧ t.ports[(3 : PortNo)].aligned = false ∧ t.ref.state = .freewheel :=
  ⟨⟨rfl, rfl, rfl⟩, rfl, by decide, by decide +kernel, by decide +kernel, _, rfl, by decide +kernel⟩

def portIn (txn : TxnState) (request : List Byte) (bus : Bus) : MPort :=
  { MPort.powerOn with txn := txn, request := request, bus := bus }

def withM (x : MPort) : State := { sane with portM := x }

theorem witness_RequestIsWrittenAndWaits :
    (sane.rst = false ∧ (sane.mport .m).bus = .free ∧ (sane.mport .m).txn = .idle) ∧
    ((withM (portIn .waiting [0x40, 0, 0] .free)).mport .m).txn = .waiting ∧
    (∃ l k, ((withM (portIn .answered [] (.reading true 0))).mport .m).bus = .reading l k) ∧
    ((withM (portIn .idle [] .missed)).mport .m).bus = .missed ∧
    (∃ k, ((withM (portIn .idle [] (.status 9))).mport .m).bus = .status k) ∧
    (0x5F : BitVec 7) ≠ 0x5C + sane.straps.setWidth 7 ∧
    ((withM (portIn .loading [0x18, 0, 30] (.writing true [true]))).mport .m).bus = .writing true [true] ∧
    ([true] ++ [false, true] : List Bool) = ([] : List Byte).flatMap (fun b => (List.range 8).map
      fun i => b.getLsbD (7 - i)) ++ [true, false, true] ∧
    29 < (30 : Byte).toNat ∧ (29 : Byte).toNat ≤ 29 ∧
    ([0x18, 0] : List Byte).length < 3 ∧ ([true] : List Bool).length < 8 ∧
    ((withM (portIn .idle [] .missed)).rst = false ∧ sane.portM.bus ≠ .missed ∧ State.reset.powerOn.rst = true) :=
  ⟨by decide, by decide, ⟨_, _, rfl⟩, by decide, ⟨_, rfl⟩, by decide⟩

theorem witness_ReadsSendResponseOrStatus :
    (sane.rst = false ∧ sane.portM.bus = .free ∧ sane.portS.bus = .free) ∧
    (0x5C : BitVec 7) = 0x5C + sane.straps.setWidth 7 ∧ sane.lastOp = .readStatus ∧
    (∃ b l, (withM (portIn .idle [] (.writing false []))).portM.bus = .writing b l) ∧
    (withM (portIn .idle [] (.status 9))).portM.bus = .status 9 ∧
    (withM (portIn .idle [] .missed)).portM.bus = .missed ∧
    (withM (portIn .answered [] (.reading true 31))).portM.bus = .reading true 31 ∧
    (∀ k ∈ [31, 32], (k / 8 < [(0x40 : Byte), 0, 10, 0].length ∧ k = 31 ∨
      [(0x40 : Byte), 0, 10, 0].length ≤ k / 8 ∧ k = 32)) ∧ (2 : Byte) ≠ 0x01 :=
  ⟨by decide, by decide, by decide, ⟨_, _, rfl⟩, by decide⟩

theorem witness_RequestsAreHandedOnInTurnAndAnswered :
    (resetting.executor.isSome = true ∧ sane.executor = none) ∧
    (({ sane with portM := portIn .waiting [0x40, 0, 0] .free, portS := portIn .waiting [0x50, 0, 0] .free } :
      State).lastServed ≠ .m) ∧
    (parseFrame [0x40, 0, 0] = some .attention ∧ parseFrame [0x99, 0, 0] = none) ∧
    (ask .attention).answer = none ∧
    ({ ask .attention with answer := some ⟨.empty, []⟩ } : Execution).answer = some ⟨.empty, []⟩ := by
  decide +kernel

theorem witness_RequestFramesRoundTrip :
    (Instr.portQuery 15).wf = true ∧ encodeFrame 0x21 (.portQuery 15) = some [0x31, 0x21, 1, 15] ∧
    ([0x31, 0x21, 1, 15] : List Byte).length ≤ 32 ∧
    parseFrame [0x31, 0x21, 1, 15] = some (.portQuery 15) ∧ ([0x31, 0x21] : List Byte).length < 3 := by decide

/-! The invariants, on states that are not the reset state. -/

/-- A state with a command in front, its queue apart. -/
def queued (s : State) (i : Instr) : State := { s with pending := [i] }

theorem witness_StepKeepsPortsSane :
    (queued sane .oscillatorFrameStart).PortsInv ∧
      ∃ t, step (queued sane .oscillatorFrameStart) = .next t := ⟨sane_ports, _, rfl⟩

theorem witness_StepKeepsReferenceSane :
    (queued sane .oscillatorFrameStart).RefInv ∧
      ∃ t, step (queued sane .oscillatorFrameStart) = .next t :=
  ⟨⟨sane_ref.ok, sane_ref.freewheel, sane_ref.missed, sane_ref.good, sane_ref.followed⟩, _, rfl⟩

theorem witness_StepKeepsTablesConsistent :
    ((queued sane .oscillatorFrameStart).MapInv ∧ (queued sane .oscillatorFrameStart).BindInv) ∧
      ∃ t, step (queued sane .oscillatorFrameStart) = .next t := by
  have tables : (queued sane .oscillatorFrameStart).TablesWf :=
    ⟨sane_tables.records, sane_tables.slotMap, sane_tables.selections, sane_tables.contexts,
      sane_tables.noIdle, sane_tables.ids, sane_tables.contextNumbers⟩
  exact ⟨⟨⟨tables, sane_map.records, sane_map.held, sane_map.named, sane_map.selected⟩,
    ⟨tables, sane_bind.bound, sane_bind.binds⟩⟩, _, rfl⟩

theorem witness_StepKeepsContextsAndListSane :
    ((queued sane .oscillatorFrameStart).ContextsSane ∧ (queued sane .oscillatorFrameStart).ListInv) ∧
      ∃ t, step (queued sane .oscillatorFrameStart) = .next t := by
  have tables : (queued sane .oscillatorFrameStart).TablesWf :=
    ⟨sane_tables.records, sane_tables.slotMap, sane_tables.selections, sane_tables.contexts,
      sane_tables.noIdle, sane_tables.ids, sane_tables.contextNumbers⟩
  exact ⟨⟨sane_contexts, ⟨tables, sane_list.once, sane_list.kinds⟩⟩, _, rfl⟩

/-- A port on whose bus no transaction runs. -/
theorem free_inv {x : MPort} (hb : x.bus = .free) (ht : x.txn ≠ .loading)
    (hr : (x.txn = .answered → 4 ≤ x.response.length ∧ x.response.length ≤ 48) ∧
      (x.txn ≠ .answered → x.response = []))
    (hq : x.request.length ≤ 32 ∧ (x.txn = .waiting → frameComplete x.request = true) ∧
      (x.txn ≠ .loading → x.txn ≠ .waiting → x.request = [])) : x.Inv :=
  ⟨hr, hq, by simp [hb, ht], by simp [hb], by simp [hb], by simp [hb]⟩

theorem resetting_bus : (queued resetting .deviceReset).BusInv := by
  refine ⟨free_inv rfl (by decide) (by decide) (by decide), free_inv rfl (by decide) (by decide) (by decide),
    fun p => ?_, fun x hx => ?_, fun h => by cases h⟩
  · cases p
    · exact ⟨fun _ => ⟨ask .deviceReset, rfl, rfl⟩, fun _ => rfl⟩
    · refine ⟨fun h => absurd h (by decide), ?_⟩
      rintro ⟨x, hx, hp⟩
      cases hx
      cases hp
  · cases hx
    exact ⟨fun _ => rfl, fun a ha => by cases ha⟩

theorem witness_StepKeepsBusSane :
    (queued resetting .deviceReset).BusInv ∧ ∃ t, step (queued resetting .deviceReset) = .next t :=
  ⟨resetting_bus, _, rfl⟩

end Sys2Proof.Tests
end

section
/-! PROOFS. PORT_CLEAR_COUNTS (R21): the request handed over, on a number that names no port and on one
that names a port. -/

namespace Sys2Proof.Proofs

open Sys2Proof Sys2Proof.Machine

/-- The meaning the dispatch gives the request. -/
theorem exec_portClearCounts (port : Byte) (s : State) :
    exec (.portClearCounts port) s = execPortClearCounts port s := rfl

/-- Above 15 the executor answers BAD_PARAM and leaves the rest of the state alone. -/
theorem execPortClearCounts_badParam {port : Byte} {s : State} {x : Execution}
    (hx : s.handed (.portClearCounts port) x) (hport : 16 ≤ port.toNat) :
    execPortClearCounts port s = .next (s.answering x ⟨.badParam, []⟩) := by
  rw [execPortClearCounts, carryOut_handed hx, onPort_none _ _ hport, Answer.bare]

/-- On a port, whatever its enable, the answer holds the counters as they stood, and only that port's
counters change. -/
theorem execPortClearCounts_ok {port : Byte} {s : State} {x : Execution} {n : PortNo}
    (hx : s.handed (.portClearCounts port) x) (hn : n.val = port.toNat) :
    execPortClearCounts port s =
      .next (({ s with ports := s.ports.set n s.ports[n].clearCounts } : State).answering x
        (.ok (countBytes s.ports[n].slip.slips ++ countBytes s.ports[n].framer.erroredCount))) := by
  rw [execPortClearCounts, carryOut_handed hx, onPort_some _ _ hn]

/-- Settles O47: the request's two outcomes, by whether the number names a port. -/
theorem portClearCountsReturnsAndZeroes : Obligations.PortClearCountsReturnsAndZeroes := by
  intro port s x hx
  rw [exec_portClearCounts]
  constructor
  · exact execPortClearCounts_badParam hx
  · intro n hn
    rw [execPortClearCounts_ok hx hn, Port.clearCounts, Answer.ok, countBytes, countBytes]

end Sys2Proof.Proofs
end

section
/-! PROOFS. REF_SELECT (R29): the selection a request names, the monitor after the choice, and the
request's three outcomes. -/

namespace Sys2Proof.Proofs

open Sys2Proof Sys2Proof.Machine

/-! ### The selection a request names -/

/-- The requests that name the selection `y`. -/
theorem refSelection?_eq_some {sel port : Byte} {y : RefSelection} :
    refSelection? sel port = some y ↔
      (sel = 0 ∧ y = .external) ∨ (sel = 1 ∧ ∃ n : PortNo, n.val = port.toNat ∧ y = .port n) := by
  unfold refSelection?
  split
  case isTrue h0 => simp [h0, eq_comm]
  case isFalse h0 =>
    split
    case isTrue h1 => simp [h1, portNo_some, eq_comm (b := y)]
    case isFalse h1 => simp only [h0, h1, false_and, or_self, reduceCtorEq]

/-- The requests that name none: another code, or a port above 15. -/
theorem refSelection?_eq_none {sel port : Byte} :
    refSelection? sel port = none ↔ 2 ≤ sel.toNat ∨ (sel = 1 ∧ 16 ≤ port.toNat) := by
  unfold refSelection?
  split
  case isTrue h0 => simp [h0]
  case isFalse h0 =>
    split
    case isTrue h1 => simp [h1, portNo_none]
    case isFalse h1 =>
      have hsel : 2 ≤ sel.toNat := by bv_omega
      simp [hsel]

/-- A monitor with the selection a request names shows it in the request's own bytes, the port byte 0
with EXTERNAL (R188, R190). -/
theorem selectionBytes_of_refSelection? {sel port : Byte} {r : RefMonitor}
    (hr : refSelection? sel port = some r.selection) :
    r.selectionBytes = [sel, if sel = 0 then 0 else port] := by
  obtain ⟨rfl, hy⟩ | ⟨rfl, n, hn, hy⟩ := refSelection?_eq_some.mp hr
  · simp [RefMonitor.selectionBytes, hy]
  · simp [RefMonitor.selectionBytes, hy, hn, byteOf]

/-! ### The monitor after the choice -/

theorem choose_same {r : RefMonitor} {y : RefSelection} (h : r.selection = y) : r.choose y = r := if_pos h

/-- A new selection is stored in a monitor that has entered FREEWHEEL. -/
theorem choose_new {r : RefMonitor} {y : RefSelection} (h : r.selection ≠ y) :
    r.choose y = { r.lose with selection := y } := if_neg h

@[simp] theorem choose_selection (r : RefMonitor) (y : RefSelection) : (r.choose y).selection = y := by
  by_cases h : r.selection = y
  · rw [choose_same h, h]
  · rw [choose_new h]

theorem refState_number (x : RefState) : x.number = if x = .refOk then 0 else 1 := by cases x <;> rfl

/-! ### The request -/

/-- The meaning the dispatch gives the request. -/
theorem exec_refSelect (sel port : Byte) (s : State) :
    exec (.refSelect sel port) s = execRefSelect sel port s := rfl

/-- A request that names no selection answers BAD_PARAM and leaves the rest of the state alone. -/
theorem execRefSelect_badParam {sel port : Byte} {s : State} {x : Execution}
    (hx : s.handed (.refSelect sel port) x) (h : refSelection? sel port = none) :
    execRefSelect sel port s = .next (s.answering x ⟨.badParam, []⟩) := by
  rw [execRefSelect, carryOut_handed hx, doRefSelect, h, Answer.bare]

/-- A request that names the selection `y` leaves the monitor at its choice of `y` and everything else
alone; the answer shows the request's own bytes and the monitor's state after it. -/
theorem execRefSelect_ok {sel port : Byte} {s : State} {x : Execution} {y : RefSelection}
    (hx : s.handed (.refSelect sel port) x) (h : refSelection? sel port = some y) :
    execRefSelect sel port s = .next (({ s with ref := s.ref.choose y } : State).answering x
      ⟨.ok, [sel, if sel = 0 then 0 else port, if (s.ref.choose y).state = .refOk then 0 else 1]⟩) := by
  have hbytes : (s.ref.choose y).selectionBytes = [sel, if sel = 0 then 0 else port] :=
    selectionBytes_of_refSelection? (by rw [choose_selection, h])
  rw [execRefSelect, carryOut_handed hx, doRefSelect, h]
  simp only [hbytes, refState_number, Answer.ok, List.cons_append, List.nil_append]

/-- Settles O29: a request that names no selection, the one in force, and a new one. -/
theorem refSelectStoresSelection : Obligations.RefSelectStoresSelection := by
  intro s x sel port hx
  rw [exec_refSelect]
  refine ⟨fun hnone => execRefSelect_badParam hx (refSelection?_eq_none.mpr hnone), fun y hy => ?_⟩
  rw [execRefSelect_ok hx (refSelection?_eq_some.mpr hy)]
  constructor
  · intro hsame
    rw [choose_same hsame]
  · intro hnew
    rw [choose_new hnew]
    rfl

end Sys2Proof.Proofs
end

section
/-! PROOFS. CONNECT (R66 to R71): the lowest FREE id, and the request's four outcomes in the order of its
checks. -/

namespace Sys2Proof.Proofs

open Sys2Proof Sys2Proof.Machine

/-! ### The lowest FREE id -/

theorem lowestFree_eq_some {α : Type} {t : Table α} {bound k : Nat} :
    t.lowestFree bound = some k ↔ k < bound ∧ t.get k = none ∧ ∀ j < k, t.get j ≠ none := by
  simp [Table.lowestFree, List.find?_range_eq_some, and_left_comm, Option.isSome_iff_ne_none]

theorem lowestFree_eq_none {α : Type} {t : Table α} {bound : Nat} :
    t.lowestFree bound = none ↔ ∀ k < bound, t.get k ≠ none := by
  simp [Table.lowestFree]

/-! ### The request -/

/-- The meaning the dispatch gives the request. -/
theorem exec_connect (q : ConnectReq) (s : State) : exec (.connect q) s = execConnect q s := rfl

section
variable {q : ConnectReq} {s : State} {x : Execution} (hx : s.handed (.connect q) x)
include hx

/-- Parameters that fail R67 or R68. -/
theorem execConnect_badParam (hq : connectPlan q = none) :
    execConnect q s = .next (s.answering x ⟨.badParam, []⟩) := by
  rw [execConnect, carryOut_handed hx, doConnect, hq, Answer.bare]

variable {p : ConnectPlan} (hq : connectPlan q = some p)
include hq

/-- A triple of the new record is held (R69). -/
theorem execConnect_slotTaken {t : Triple} {holder : Nat}
    (hheld : firstHeld s.slotMap (newRecord q p).triples = some (t, holder)) :
    execConnect q s = .next (s.answering x (.slotTaken t holder)) := by
  simp only [execConnect, carryOut_handed hx, doConnect, hq, hheld]

variable (hfree : ∀ u ∈ (newRecord q p).triples, s.slotMap.get u.key = none)
include hfree

/-- Every triple is free and no id is (R70). -/
theorem execConnect_tableFull (hfull : ∀ k < 512, s.records.get k ≠ none) :
    execConnect q s = .next (s.answering x ⟨.tableFull, []⟩) := by
  have hid : s.records.lowestFree Config.records = none := lowestFree_eq_none.mpr hfull
  simp only [execConnect, carryOut_handed hx, doConnect, hq, firstHeld_none.mpr hfree, hid, Answer.bare]

/-- The record is installed at the lowest FREE id (R71). -/
theorem execConnect_ok {id : Nat} (hlt : id < 512) (hnone : s.records.get id = none)
    (hbelow : ∀ k < id, s.records.get k ≠ none) :
    execConnect q s = .next ((s.install id q p).answering x (.recordOk id RecState.staged.number 0)) := by
  have hid : s.records.lowestFree Config.records = some id := lowestFree_eq_some.mpr ⟨hlt, hnone, hbelow⟩
  simp only [execConnect, carryOut_handed hx, doConnect, hq, firstHeld_none.mpr hfree, hid]

end

/-- Settles O32: the four outcomes, each under the checks that come before it. -/
theorem connectTakesLowestFreeId : Obligations.ConnectTakesLowestFreeId := by
  intro q s x hx
  rw [exec_connect]
  refine ⟨execConnect_badParam hx, fun p r hq hr => ?_⟩
  obtain rfl : r = newRecord q p := hr
  refine ⟨?_, execConnect_tableFull hx hq, ?_⟩
  · intro before t after holder hsplit hbefore ht
    have hheld : firstHeld s.slotMap (newRecord q p).triples = some (t, holder) := by
      rw [hsplit]
      exact firstHeld_split hbefore ht
    exact execConnect_slotTaken hx hq hheld
  · intro id hfree hlt hnone hbelow
    rw [execConnect_ok hx hq hfree hlt hnone hbelow]
    rfl

end Sys2Proof.Proofs
end

section
/-! PROOFS. FIND (R84): the triple a request names, the role of a triple in its holder, and the request's
outcomes. -/

namespace Sys2Proof.Proofs

open Sys2Proof Sys2Proof.Machine

/-! ### The triple a FIND names -/

theorem dir?_eq_some {b : Byte} {d : Dir} : dir? b = some d ↔ d.number = b := by
  unfold dir?
  split
  case isTrue h0 => cases d <;> simp [h0, Dir.number]
  case isFalse h0 =>
    split
    case isTrue h1 => cases d <;> simp [h1, Dir.number]
    case isFalse h1 =>
      cases d with
      | rx => simpa [Dir.number] using Ne.symm h0
      | tx => simpa [Dir.number] using Ne.symm h1

theorem dir?_eq_none {b : Byte} : dir? b = none ↔ 2 ≤ b.toNat := by
  unfold dir?
  split
  case isTrue h0 => simp [h0]
  case isFalse h0 =>
    split
    case isTrue h1 => simp [h1]
    case isFalse h1 =>
      have hb : 2 ≤ b.toNat := by bv_omega
      simp [hb]

/-- A port above 15, a slot outside the payload or a code that names no direction. -/
theorem findTriple_none {port slot direction : Byte}
    (h : 16 ≤ port.toNat ∨ slot.toNat = 0 ∨ 35 < slot.toNat ∨ 2 ≤ direction.toNat) :
    findTriple port slot direction = none := by
  unfold findTriple
  split
  case h_1 n d hn hd =>
    have hport : ¬ 16 ≤ port.toNat := fun hp => by simp [portNo_none.mpr hp] at hn
    have hdir : ¬ 2 ≤ direction.toNat := fun hb => by simp [dir?_eq_none.mpr hb] at hd
    exact if_neg (by simp only [Config.lastSlot]; omega)
  case h_2 => rfl

theorem findTriple_some {port slot : Byte} {n : PortNo} (dir : Dir) (hn : n.val = port.toNat)
    (hlow : 1 ≤ slot.toNat) (hhigh : slot.toNat ≤ 35) :
    findTriple port slot dir.number = some ⟨n, slot.toNat, dir⟩ := by
  simp only [findTriple, portNo_some.mpr hn, dir?_eq_some.mpr rfl, if_pos (And.intro hlow hhigh)]

/-! ### The role of a triple in its holder -/

/-- The search stops at the first entry that covers the slot, counting from its start index. -/
theorem findDest_append {width slot : Nat} {port : PortNo} {before after : List Dest} {d : Dest}
    (hbefore : ∀ u ∈ before, u.dest.covers width port slot = false)
    (hd : d.dest.covers width port slot = true) (i : Nat) :
    findDest width port slot i (before ++ d :: after) = some (i + before.length, d) := by
  induction before generalizing i with
  | nil => simp [findDest, hd]
  | cons u before ih =>
    obtain ⟨hu, hbefore⟩ := List.forall_mem_cons.mp hbefore
    simp only [List.cons_append, findDest, hu, Bool.false_eq_true, if_false, ih hbefore, List.length_cons]
    congr 2
    omega

section
variable {r : Record} {n : PortNo} {slot : Nat} {dir : Dir}

/-- SIMPLEX and BRANCH records are reported by the same rule. -/
theorem role_eq_simplex (hk : r.kind ≠ .duplex) (t : Triple) :
    r.role t = ({ r with kind := .simplex } : Record).role t := by
  cases hkind : r.kind with
  | duplex => exact absurd hkind hk
  | simplex | branch => simp only [Record.role, hkind]

theorem role_source (hk : r.kind ≠ .duplex) (hdir : dir = .rx)
    (hc : r.source.covers r.width n slot = true) :
    r.role ⟨n, slot, dir⟩ = [0, 0, 0, byteOf (slot - r.source.first)] := by
  rw [role_eq_simplex hk]
  simp only [Record.role, hdir, hc, if_true]

theorem role_standby {e : End} (hk : r.kind ≠ .duplex) (hdir : dir = .rx)
    (hc : r.source.covers r.width n slot = false) (he : r.standby = some e) :
    r.role ⟨n, slot, dir⟩ = [1, 0, 0, byteOf (slot - e.first)] := by
  rw [role_eq_simplex hk]
  simp only [Record.role, hdir, hc, he, Bool.false_eq_true, if_false]

theorem role_leaving {e : End} (hk : r.kind ≠ .duplex) (hdir : dir = .rx)
    (hc : r.source.covers r.width n slot = false) (hs : r.standby = none)
    (he : r.leaving = some e) : r.role ⟨n, slot, dir⟩ = [1, 0, 1, byteOf (slot - e.first)] := by
  rw [role_eq_simplex hk]
  simp only [Record.role, hdir, hc, hs, he, Bool.false_eq_true, if_false]

theorem role_destination {before after : List Dest} {d : Dest} (hk : r.kind ≠ .duplex)
    (hdir : dir = .tx) (hdests : r.dests = before ++ d :: after)
    (hbefore : ∀ u ∈ before, u.dest.covers r.width n slot = false)
    (hd : d.dest.covers r.width n slot = true) :
    r.role ⟨n, slot, dir⟩ = [2, byteOf before.length, d.state.number, byteOf (slot - d.dest.first)] := by
  have hfind : findDest r.width n slot 0 r.dests = some (before.length, d) := by
    rw [hdests, findDest_append hbefore hd, Nat.zero_add]
  rw [role_eq_simplex hk]
  simp only [Record.role, hdir, hfind]

theorem role_duplex_source (hk : r.kind = .duplex)
    (hc : r.source.covers r.width n slot = true) :
    r.role ⟨n, slot, dir⟩ = [3, 0, 0, byteOf (slot - r.source.first)] := by
  simp only [Record.role, hk, hc, if_true]

theorem role_duplex_destination {d : Dest} (hk : r.kind = .duplex)
    (hc : r.source.covers r.width n slot = false) (hdests : r.dests = [d]) :
    r.role ⟨n, slot, dir⟩ = [4, 0, 0, byteOf (slot - d.dest.first)] := by
  simp [Record.role, hk, hc, hdests]

end

/-! ### The request -/

/-- The meaning the dispatch gives the request. -/
theorem exec_find (port slot direction : Byte) (s : State) :
    exec (.find port slot direction) s = execFind port slot direction s := rfl

section
variable {port slot direction : Byte} {s : State} {x : Execution}
  (hx : s.handed (.find port slot direction) x)
include hx

theorem execFind_badParam (hnone : findTriple port slot direction = none) :
    execFind port slot direction s = .next (s.answering x ⟨.badParam, []⟩) := by
  rw [execFind, carryOut_handed hx, doFind, hnone, Answer.bare]

variable {t : Triple} (ht : findTriple port slot direction = some t)
include ht

theorem execFind_notFound (hfree : s.slotMap.get t.key = none) :
    execFind port slot direction s = .next (s.answering x ⟨.notFound, []⟩) := by
  simp only [execFind, carryOut_handed hx, doFind, ht, hfree, Answer.bare]

theorem execFind_ok {id : Nat} {r : Record} (hheld : s.slotMap.get t.key = some id)
    (hr : s.records.get id = some r) :
    execFind port slot direction s =
      .next (s.answering x (.ok (idBytes id ++ r.role t ++ [r.state.number, r.revision]))) := by
  simp only [execFind, carryOut_handed hx, doFind, ht, hheld, hr]

end

/-- Settles O37: the request's outcomes, and the role of the triple by kind, direction and the end that
covers it. -/
theorem findReportsHolder : Obligations.FindReportsHolder := by
  intro port slot direction s x hx
  rw [exec_find]
  refine ⟨fun hbad => execFind_badParam hx (findTriple_none hbad), ?_⟩
  rintro n dir t hn hlow hhigh rfl rfl
  have ht := findTriple_some dir hn hlow hhigh
  refine ⟨execFind_notFound hx ht, fun id r hheld hr => ?_⟩
  exact ⟨execFind_ok hx ht hheld hr, role_source, fun e => role_standby, fun e => role_leaving,
    fun before d after => role_destination, role_duplex_source, fun d => role_duplex_destination⟩

end Sys2Proof.Proofs
end

section
/-! PROOFS. NEXT (R86): the lowest record at or above a start, and the request's three outcomes. -/

namespace Sys2Proof.Proofs

open Sys2Proof Sys2Proof.Machine

/-! ### The lowest record at or above a start -/

/-- The keys before the record's in the table are lower, so those from the start on would be records. -/
theorem nextFrom_eq_some {s : State} (hwf : s.records.wf) {start id : Nat} {r : Record}
    (hle : start ≤ id) (hr : s.records.get id = some r)
    (hfree : ∀ k, start ≤ k → k < id → s.records.get k = none) :
    s.nextFrom start = some (id, r) := by
  obtain ⟨before, after, hsplit⟩ := List.append_of_mem (Table.get_some_mem hr)
  have hbefore : ∀ e ∈ before, ¬ start ≤ e.1 := by
    intro e he hstart
    have hget : s.records.get e.1 = some e.2 := Table.mem_get hwf (by simp [hsplit, he])
    have hlt : e.1 < id := by
      rw [hsplit] at hwf
      exact (List.pairwise_append.mp hwf).2.2 e he (id, r) (List.mem_cons_self ..)
    simp [hfree e.1 hstart hlt] at hget
  refine List.find?_eq_some_iff_append.mpr ⟨decide_eq_true hle, before, after, hsplit, ?_⟩
  intro e he
  simpa using hbefore e he

theorem nextFrom_eq_none {s : State} (hwf : s.records.wf) {start : Nat}
    (hfree : ∀ k, start ≤ k → s.records.get k = none) : s.nextFrom start = none := by
  refine List.find?_eq_none.mpr fun e he hstart => ?_
  have hget : s.records.get e.1 = some e.2 := Table.mem_get hwf he
  simp [hfree e.1 (of_decide_eq_true hstart)] at hget

/-! ### The request -/

/-- The meaning the dispatch gives the request. -/
theorem exec_nextRecord (start : Half) (s : State) :
    exec (.nextRecord start) s = execNextRecord start s := rfl

section
variable {start : Half} {s : State} {x : Execution} (hx : s.handed (.nextRecord start) x)
include hx

theorem execNextRecord_badParam (hstart : 512 ≤ start.toNat) :
    execNextRecord start s = .next (s.answering x ⟨.badParam, []⟩) := by
  have hrange : Config.records ≤ start.toNat := hstart
  rw [execNextRecord, carryOut_handed hx, doNext, if_pos hrange, Answer.bare]

variable (hstart : start.toNat < 512)
include hstart

theorem execNextRecord_ok {id : Nat} {r : Record} (hnext : s.nextFrom start.toNat = some (id, r)) :
    execNextRecord start s = .next (s.answering x
      (.ok (idBytes id ++ [r.state.number, r.kind.number] ++ wordBytes r.label))) := by
  have hrange : ¬ Config.records ≤ start.toNat := Nat.not_le.mpr hstart
  simp only [execNextRecord, carryOut_handed hx, doNext, if_neg hrange, hnext]

theorem execNextRecord_notFound (hnext : s.nextFrom start.toNat = none) :
    execNextRecord start s = .next (s.answering x ⟨.notFound, []⟩) := by
  have hrange : ¬ Config.records ≤ start.toNat := Nat.not_le.mpr hstart
  simp only [execNextRecord, carryOut_handed hx, doNext, if_neg hrange, hnext, Answer.bare]

end

/-- Settles O38: a start out of range, one with a record at or above it, and one with none. -/
theorem nextReturnsLowestNonFree : Obligations.NextReturnsLowestNonFree := by
  intro start s x htables hx
  rw [exec_nextRecord]
  refine ⟨execNextRecord_badParam hx, ?_, ?_⟩
  · intro id r hstart hle hr hfree
    exact execNextRecord_ok hx hstart (nextFrom_eq_some htables.records hle hr hfree)
  · intro hstart hfree
    exact execNextRecord_notFound hx hstart (nextFrom_eq_none htables.records hfree)

end Sys2Proof.Proofs
end

section
/-! PROOFS. ATTENTION (R164, R165): what it reports of the subject, and the request on an empty list and
on one with a head entry. -/

namespace Sys2Proof.Proofs

open Sys2Proof Sys2Proof.Machine

/-! ### What is reported (R165, R190) -/

theorem attentionData_record (s : State) (id : Nat) (m : Summary) (left : Nat) :
    s.attentionData ⟨.record id, m⟩ left =
      0 :: idBytes id ++ [m.recordByte] ++ countBytes left ++ s.recordNow id := rfl

theorem attentionData_port (s : State) (n : PortNo) (m : Summary) (left : Nat) :
    s.attentionData ⟨.port n, m⟩ left =
      1 :: idBytes n.val ++ [m.portByte] ++ countBytes left ++ s.portNow n := rfl

theorem recordNow_free {s : State} {id : Nat} (h : s.records.get id = none) :
    s.recordNow id = [0, 0, 0, 0, 0, 0] := by
  simp only [State.recordNow, h, freeNumber]

theorem recordNow_record {s : State} {id : Nat} {r : Record} (h : s.records.get id = some r) :
    s.recordNow id = [r.state.number, r.revision, r.healthAB.state.number,
      r.healthBA.elim 0xFF fun h => h.state.number, r.healthS.elim 0xFF fun h => h.state.number,
      (s.contextOf r).elim 0 fun kc => kc.2.selected.number] := by
  simp only [State.recordNow, h]

/-! ### The request -/

/-- The meaning the dispatch gives the request. -/
theorem exec_attention (s : State) : exec .attention s = execAttention s := rfl

section
variable {s : State} {x : Execution} (hx : s.handed .attention x)
include hx

theorem execAttention_empty (hl : s.attention = []) :
    execAttention s = .next (s.answering x ⟨.empty, []⟩) := by
  simp only [execAttention, carryOut_handed hx, doAttention, hl, Answer.bare]

/-- The head entry leaves the list, and the subject's state is reported as it stands at the step. -/
theorem execAttention_head {e : Entry} {rest : List Entry} (hl : s.attention = e :: rest) :
    execAttention s = .next (({ s with attention := rest } : State).answering x
      (.ok (s.attentionData e rest.length))) := by
  simp only [execAttention, carryOut_handed hx, doAttention, hl]

end

/-- Settles O48: the empty list, a record's entry at the head, by whether the record is FREE, and a port's. -/
theorem attentionFetchesHeadEntry : Obligations.AttentionFetchesHeadEntry := by
  intro s x hx
  rw [exec_attention]
  refine ⟨execAttention_empty hx, fun id m rest hl => ?_, fun n m rest hl => ?_⟩
  · rw [execAttention_head hx hl, attentionData_record]
    cases hr : s.records.get id with
    | none => rw [recordNow_free hr]; rfl
    | some r =>
      rw [recordNow_record hr]
      dsimp only
      -- each of the three parts a record can lack is absent or there
      cases r.healthBA <;> cases r.healthS <;> cases s.contextOf r <;> rfl
  · rw [execAttention_head hx hl, attentionData_port]
    simp only [State.portNow]
    cases s.ports[n].maint.lastCode with
    | none => rfl
    | some c => cases c <;> rfl

end Sys2Proof.Proofs
end

section
/-! PROOFS. The frame of the ATN enables (R168): no shared operation writes them, and no command but
ATTN_ENABLE and RST_ASSERT does. -/

namespace Sys2Proof.Proofs

open Sys2Proof Sys2Proof.Machine

/-- The two ATN enables, as one value. -/
def enables (s : State) : Bool × Bool := (s.enableM, s.enableS)

theorem enables_eq_iff {s t : State} :
    enables t = enables s ↔ t.enableM = s.enableM ∧ t.enableS = s.enableS := by
  simp only [enables, Prod.mk.injEq]

/-! ### The shared updates -/

@[simp] theorem enables_postIf (s : State) (b : Bool) (x : Subject) (c : Change) :
    enables (s.postIf b x c) = enables s := by simp [enables]

@[simp] theorem enables_setRecord (s : State) (id : Nat) (r : Record) :
    enables (s.setRecord id r) = enables s := rfl

@[simp] theorem enables_freeRecord (s : State) (id : Nat) (r : Record) :
    enables (s.freeRecord id r) = enables s := by simp [enables]

@[simp] theorem enables_commitContext (s : State) (id k : Nat) (a b : Context) :
    enables (s.commitContext id k a b) = enables s := by simp [enables]

@[simp] theorem enables_changePort (s : State) (n : PortNo) (q : Port) :
    enables (s.changePort n q) = enables s := by simp [enables]

@[simp] theorem enables_setMport (s : State) (p : MPortId) (x : MPort) :
    enables (s.setMport p x) = enables s := by simp [enables]

theorem enables_withPorts (s : State) (v : Vector Port 16) : enables { s with ports := v } = enables s := rfl

theorem enables_withInterval (s : State) (p : Period) : enables { s with interval := p } = enables s := rfl

theorem enables_withSlipPeriod (s : State) (p : Period) : enables { s with slipPeriod := p } = enables s :=
  rfl

/-! ### Conditional steps, and many steps -/

theorem enables_ite {p : Prop} [Decidable p] {a b s : State} (ha : enables a = enables s)
    (hb : enables b = enables s) : enables (if p then a else b) = enables s := by
  split
  · exact ha
  · exact hb

theorem enables_foldl {α : Type} {f : State → α → State} (hf : ∀ s a, enables (f s a) = enables s)
    (l : List α) (s : State) : enables (l.foldl f s) = enables s := by
  induction l generalizing s with
  | nil => rfl
  | cons a l ih => rw [List.foldl_cons, ih, hf]

/-! ### Ports -/

@[simp] theorem enables_changePorts (s : State) (f : Port → Port) :
    enables (s.changePorts f) = enables s := enables_foldl (fun s n => enables_changePort s n _) _ s

@[simp] theorem enables_changeCounted (s : State) (n : PortNo) (x : Port × Bool) :
    enables (s.changeCounted n x) = enables s := by
  rw [State.changeCounted, enables_postIf, enables_changePort]

/-! ### A system frame start and the marks (R24 to R28) -/

@[simp] theorem enables_retireAtFrame (s : State) (id : Nat) (r : Record) :
    enables (s.retireAtFrame id r) = enables s := enables_freeRecord s id r

@[simp] theorem enables_installAtFrame (s : State) (id : Nat) (r : Record) :
    enables (s.installAtFrame id r) = enables s := by
  rw [State.installAtFrame, enables_postIf]
  rfl

@[simp] theorem enables_recompute (s : State) (id : Nat) : enables (s.recompute id) = enables s := by
  unfold State.recompute
  split
  case h_1 => rfl
  case h_2 r _ => exact enables_ite (enables_retireAtFrame s id r) (enables_installAtFrame s id r)

@[simp] theorem enables_applyPending (s : State) : enables s.applyPending = enables s :=
  enables_foldl enables_recompute _ s

@[simp] theorem enables_tickCounts (s : State) : enables s.tickCounts = enables s := rfl

@[simp] theorem enables_frameStart (s : State) : enables s.frameStart = enables s := by
  simp only [State.frameStart, enables_withPorts, enables_tickCounts, enables_applyPending]

@[simp] theorem enables_startAt (s : State) (moment : Nat) (r : RefMonitor) :
    enables (s.startAt moment r) = enables s := by
  rw [State.startAt, enables_frameStart]
  rfl

@[simp] theorem enables_reacquireAt (s : State) (moment : Nat) :
    enables (s.reacquireAt moment) = enables s := by
  rw [State.reacquireAt, enables_withPorts, enables_startAt]

@[simp] theorem enables_markOk (s : State) (moment : Nat) : enables (s.markOk moment) = enables s :=
  enables_ite (enables_ite rfl rfl) (enables_ite (enables_startAt s moment _) rfl)

@[simp] theorem enables_markFree (s : State) (moment : Nat) : enables (s.markFree moment) = enables s :=
  enables_ite (enables_reacquireAt s moment) rfl

@[simp] theorem enables_mark (s : State) (moment : Nat) : enables (s.mark moment) = enables s := by
  unfold State.mark
  split
  · exact enables_markOk s moment
  · exact enables_markFree s moment

@[simp] theorem enables_takeLateMark (s : State) : enables s.takeLateMark = enables s := by
  unfold State.takeLateMark
  split
  · exact enables_mark s _
  · rfl

@[simp] theorem enables_frameMark (s : State) (n : PortNo) (moment : Nat) (bits : List Bool) :
    enables (s.frameMark n moment bits) = enables s := enables_ite (enables_mark s _) rfl

@[simp] theorem enables_oscillatorStart (s : State) : enables s.oscillatorStart = enables s :=
  enables_startAt s _ _

/-! ### Supervision and wait-to-restore (R107, R139) -/

@[simp] theorem enables_handFails (turn : Turn) (s : State) (id : Nat) (r r' : Record) :
    enables (s.handFails turn id r r') = enables s := by
  unfold State.handFails
  split
  · exact enables_commitContext ..
  · rfl

@[simp] theorem enables_evaluateRecord (turn : Turn) (s : State) (id : Nat) :
    enables (s.evaluateRecord turn id) = enables s := by
  unfold State.evaluateRecord
  split
  case h_1 => rfl
  case h_2 r _ => exact enables_ite (by rw [enables_handFails, enables_postIf, enables_setRecord]) rfl

@[simp] theorem enables_evaluate (s : State) (turn : Turn) : enables (s.evaluate turn) = enables s :=
  enables_foldl (enables_evaluateRecord turn) _ s

@[simp] theorem enables_expireWait (turn : Turn) (s : State) (id : Nat) :
    enables (s.expireWait turn id) = enables s := by
  unfold State.expireWait
  split
  case h_1 => rfl
  case h_2 =>
    split
    case h_1 => rfl
    case h_2 => exact enables_ite (enables_commitContext ..) rfl

/-! ### Bus transactions (R171 to R177) -/

@[simp] theorem enables_statusCopies (s : State) (p : MPortId) (count : Nat) :
    enables (s.statusCopies p count) = enables s := enables_setMport ..

@[simp] theorem enables_writeOut (s : State) (p : MPortId) (had more : Nat) :
    enables (s.writeOut p had more) = enables s := by
  cases p with
  | m => exact enables_statusCopies ..
  | s => rfl

@[simp] theorem enables_writeOn (s : State) (p : MPortId) (bits : List Bool) :
    enables (s.writeOn p bits) = enables s := by
  cases p with
  | m => exact (enables_writeOut ..).trans (enables_setMport ..)
  | s => rfl

@[simp] theorem enables_writeOnMore (s : State) (p : MPortId) (bits : List Bool) :
    enables (s.writeOnMore p bits) = enables s := by
  unfold State.writeOnMore
  split
  case h_1 => rw [enables_writeOut, enables_setMport]
  all_goals rfl

/-- A transfer on port S's bus writes what its action writes. -/
theorem enables_addressed {act : State → State} (hact : ∀ s, enables (act s) = enables s) (s : State)
    (address : BitVec 7) : enables (s.addressed address act) = enables s :=
  enables_ite (hact _) (enables_ite rfl rfl)

@[simp] theorem enables_writePart (s : State) (via : Via) (part : BusPart (List Bool)) :
    enables (s.writePart via part) = enables s := by
  cases via with
  | spi =>
    cases part with
    | begins bits => exact enables_ite (enables_writeOn ..) rfl
    | further bits => exact enables_writeOnMore ..
  | i2c a =>
    cases part with
    | begins bits => exact enables_addressed (fun s => enables_writeOn s .s bits) s a
    | further bits => exact enables_ite (enables_writeOnMore ..) rfl

@[simp] theorem enables_readPart (s : State) (p : MPortId) (part : BusPart Nat) :
    enables (s.readPart p part) = enables s := by
  cases part with
  | begins count => exact enables_ite (enables_setMport ..) rfl
  | further count => exact enables_setMport ..

@[simp] theorem enables_statusRead (s : State) (p : MPortId) (count : Nat) :
    enables (s.statusRead p count) = enables s := by
  cases count with
  | zero => rfl
  | succ k => rw [State.statusRead, enables_statusCopies, enables_setMport, enables_statusCopies]

@[simp] theorem enables_statusBits (s : State) (p : MPortId) (clears : Bool) (had more : Nat) :
    enables (s.statusBits p clears had more) = enables s :=
  enables_ite ((enables_statusRead ..).trans (enables_setMport ..))
    ((enables_statusCopies ..).trans (enables_setMport ..))

@[simp] theorem enables_statusPart (s : State) (p : MPortId) (clears : Bool) (part : BusPart Nat) :
    enables (s.statusPart p clears part) = enables s := by
  cases part with
  | begins count => exact enables_ite ((enables_statusBits ..).trans (enables_setMport ..)) rfl
  | further count =>
    simp only [State.statusPart]
    split
    case h_1 => exact enables_statusBits ..
    all_goals rfl

@[simp] theorem enables_readS (s : State) (part : BusPart Nat) : enables (s.readS part) = enables s := by
  unfold State.readS
  split
  · exact enables_readPart ..
  · exact enables_statusPart ..
  · exact enables_statusPart ..

@[simp] theorem enables_i2cRead (s : State) (address : BitVec 7) (part : BusPart Nat) :
    enables (s.i2cRead address part) = enables s := by
  cases part with
  | begins count => exact enables_addressed (fun s => enables_readS s _) s address
  | further count => exact enables_ite (enables_readS ..) rfl

@[simp] theorem enables_i2cWrite (s : State) (data : List Byte) : enables (s.i2cWrite data) = enables s := by
  cases data with
  | nil => rfl
  | cons operation rest => exact enables_ite (enables_writeOn ..) rfl

/-! ### The executor's hand-over and placing (R178, R179) -/

@[simp] theorem enables_handOn (s : State) (p : MPortId) : enables (s.handOn p) = enables s := by
  simp [enables, State.handOn]

@[simp] theorem enables_place (s : State) (x : Execution) (a : Answer) :
    enables (s.place x a) = enables s := by simp [enables, State.place]

/-! ### Requests: the checks, then what an accepted one does

Each branch of a `do…` either refuses and leaves the state, or ends in an operation above or in a write of
other fields. -/

theorem enables_onRecord {id : Half} {act : Nat → Record → State → Answer × State} {s : State}
    (hact : ∀ k r, enables (act k r s).2 = enables s) : enables (onRecord id act s).2 = enables s := by
  unfold onRecord
  split
  case isTrue => rfl
  case isFalse =>
    split
    case h_1 => rfl
    case h_2 r _ => exact hact _ r

theorem enables_onRevision {id : Half} {expected : Byte} {act : Nat → Record → State → Answer × State}
    {s : State} (hact : ∀ k r, enables (act k r s).2 = enables s) :
    enables (onRevision id expected act s).2 = enables s := by
  refine enables_onRecord fun k r => ?_
  split
  · exact hact k r
  · rfl

theorem enables_onPort {port : Byte} {act : PortNo → State → Answer × State} {s : State}
    (hact : ∀ n, enables (act n s).2 = enables s) : enables (onPort port act s).2 = enables s := by
  unfold onPort
  split
  · exact hact _
  · rfl

theorem enables_doConnect (q : ConnectReq) (s : State) : enables (doConnect q s).2 = enables s := by
  unfold doConnect
  repeat' split
  all_goals rfl

theorem enables_modifyRecord (q : ModifyReq) (id : Nat) (r : Record) (s : State) :
    enables (modifyRecord q id r s).2 = enables s := by
  unfold modifyRecord modifyAdd modifyRemove
  repeat' split
  all_goals rfl

theorem enables_retireRecord (id : Nat) (r : Record) (s : State) :
    enables (retireRecord id r s).2 = enables s := by
  unfold retireRecord
  split
  case h_1 => exact enables_freeRecord s id r
  all_goals rfl

theorem enables_holdRecord (id : Nat) (r : Record) (s : State) :
    enables (holdRecord id r s).2 = enables s := by
  unfold holdRecord
  split <;> rfl

theorem enables_releaseRecord (id : Nat) (r : Record) (s : State) :
    enables (releaseRecord id r s).2 = enables s := by
  unfold releaseRecord
  split <;> rfl

theorem enables_doFind (port slot direction : Byte) (s : State) :
    enables (doFind port slot direction s).2 = enables s := by
  unfold doFind
  repeat' split
  all_goals rfl

theorem enables_doNext (start : Half) (s : State) : enables (doNext start s).2 = enables s := by
  unfold doNext
  repeat' split
  all_goals rfl

theorem enables_protectRecord (q : ProtectReq) (id : Nat) (r : Record) (s : State) :
    enables (protectRecord q id r s).2 = enables s := by
  unfold protectRecord
  repeat' split
  all_goals rfl

theorem enables_unprotectRecord (id : Nat) (r : Record) (s : State) :
    enables (unprotectRecord id r s).2 = enables s := by
  unfold unprotectRecord
  repeat' split
  all_goals rfl

theorem enables_switchRecord (command : Byte) (id : Nat) (r : Record) (s : State) :
    enables (switchRecord command id r s).2 = enables s := by
  unfold switchRecord
  split
  case isTrue => rfl
  case isFalse =>
    split
    case h_1 => rfl
    case h_2 =>
      split
      case h_1 => rfl
      case h_2 =>
        split
        case h_1 => rfl
        case h_2 => exact enables_commitContext ..

theorem enables_doPortSet (q : PortSetReq) (s : State) : enables (doPortSet q s).2 = enables s := by
  refine enables_onPort fun n => ?_
  split
  · exact enables_changePort ..
  · rfl

theorem enables_doPortLoop (port command : Byte) (s : State) :
    enables (doPortLoop port command s).2 = enables s := by
  refine enables_onPort fun n => ?_
  split
  case h_1 => rfl
  case h_2 l _ =>
    split
    · exact enables_changePort ..
    · rfl

theorem enables_doPortSendCode (port code : Byte) (count : Half) (s : State) :
    enables (doPortSendCode port code count s).2 = enables s := by
  refine enables_onPort fun n => ?_
  repeat' split
  all_goals rfl

theorem enables_doRefSelect (selection port : Byte) (s : State) :
    enables (doRefSelect selection port s).2 = enables s := by
  unfold doRefSelect
  split <;> rfl

theorem enables_doAttention (s : State) : enables (doAttention s).2 = enables s := by
  unfold doAttention
  split <;> rfl

@[simp] theorem enables_emptied (s : State) : enables s.emptied = enables s := by
  simp only [enables, State.emptied]

@[simp] theorem enables_releaseInward (before s : State) (n : PortNo) :
    enables (before.releaseInward s n) = enables s := enables_ite (enables_changePort s n _) rfl

theorem enables_doDeviceReset (s : State) : enables (doDeviceReset s).2 = enables s := by
  have hports := enables_foldl (enables_releaseInward s) (List.finRange 16) s.emptied
  rw [enables_emptied] at hports
  unfold doDeviceReset
  split
  · rw [enables_setMport, hports]
  · exact hports

/-! ### Commands -/

/-- Where the outcome goes on, it has the enables of `s`. -/
def KeepsEnables (s : State) (o : Host.Outcome State Fault Refusal) : Prop :=
  ∀ t, o = .next t → enables t = enables s

theorem keepsEnables_next {s t : State} (h : enables t = enables s) : KeepsEnables s (.next t) := by
  rintro _ ⟨⟩
  exact h

/-- A command that acts under a guard and otherwise changes nothing. -/
theorem keepsEnables_guard {p : Prop} [Decidable p] {s t : State} (h : enables t = enables s) :
    KeepsEnables s (if p then .next t else .next s) := by
  split
  · exact keepsEnables_next h
  · exact keepsEnables_next rfl

theorem keepsEnables_carryOut {i : Instr} {act : State → Answer × State} {s : State}
    (hact : enables (act s).2 = enables s) : KeepsEnables s (carryOut i act s) := by
  obtain ⟨x, -, hc⟩ | ⟨-, hc⟩ := carryOut_next i act s
  · rw [hc]
    exact keepsEnables_next hact
  · rw [hc]
    exact keepsEnables_next rfl

theorem keepsEnables_handOver (s : State) : KeepsEnables s (execHandOver s) := by
  unfold execHandOver
  split
  · exact keepsEnables_next (enables_handOn s _)
  · exact keepsEnables_next rfl

theorem keepsEnables_responsePlaced (s : State) : KeepsEnables s (execResponsePlaced s) := by
  unfold execResponsePlaced
  split
  case h_1 =>
    split
    case h_1 => exact keepsEnables_next (enables_place s _ _)
    case h_2 => exact keepsEnables_next rfl
  case h_2 => exact keepsEnables_next rfl

theorem keepsEnables_oscillatorFrameStart (s : State) : KeepsEnables s (execOscillatorFrameStart s) := by
  unfold execOscillatorFrameStart
  split
  · exact keepsEnables_next rfl
  · exact keepsEnables_next (enables_ite
      ((enables_oscillatorStart _).trans (enables_takeLateMark s)) (enables_takeLateMark s))

theorem keepsEnables_alignedFrameReceived (n : PortNo) (moment : Nat) (nibble symbol : List Bool)
    (s : State) : KeepsEnables s (execAlignedFrameReceived n moment nibble symbol s) :=
  keepsEnables_next ((enables_changeCounted ..).trans (enables_frameMark ..))

theorem keepsEnables_supervisionIntervalExpiry (turn : Turn) (s : State) :
    KeepsEnables s (execSupervisionIntervalExpiry turn s) :=
  keepsEnables_guard ((enables_withInterval ..).trans (enables_evaluate s turn))

theorem keepsEnables_slipPeriodEnd (turn : Turn) (s : State) : KeepsEnables s (execSlipPeriodEnd turn s) :=
  keepsEnables_guard ((enables_withSlipPeriod ..).trans (enables_changePorts s _))

theorem exec_keepsEnables {c : Instr} (hr : c ≠ .rstAssert) (ha : ∀ m e, c ≠ .attnEnable m e) (s : State) :
    KeepsEnables s (exec c s) := by
  cases c with
  | rstAssert => exact absurd rfl hr
  | attnEnable m e => exact absurd rfl (ha m e)
  | connect q => exact keepsEnables_carryOut (enables_doConnect q s)
  | modify q => exact keepsEnables_carryOut (enables_onRevision fun k r => enables_modifyRecord q k r s)
  | retire id e => exact keepsEnables_carryOut (enables_onRevision fun k r => enables_retireRecord k r s)
  | hold id e => exact keepsEnables_carryOut (enables_onRevision fun k r => enables_holdRecord k r s)
  | release id e => exact keepsEnables_carryOut (enables_onRevision fun k r => enables_releaseRecord k r s)
  | query id => exact keepsEnables_carryOut (enables_onRecord fun _ _ => rfl)
  | find p k d => exact keepsEnables_carryOut (enables_doFind p k d s)
  | nextRecord k => exact keepsEnables_carryOut (enables_doNext k s)
  | protect q => exact keepsEnables_carryOut (enables_onRevision fun k r => enables_protectRecord q k r s)
  | unprotect id e =>
    exact keepsEnables_carryOut (enables_onRevision fun k r => enables_unprotectRecord k r s)
  | switch id e c =>
    exact keepsEnables_carryOut (enables_onRevision fun k r => enables_switchRecord c k r s)
  | portSet q => exact keepsEnables_carryOut (enables_doPortSet q s)
  | portQuery p => exact keepsEnables_carryOut (enables_onPort fun _ => rfl)
  | portClearCounts p => exact keepsEnables_carryOut (enables_onPort fun _ => rfl)
  | portLoop p c => exact keepsEnables_carryOut (enables_doPortLoop p c s)
  | portSendCode p c k => exact keepsEnables_carryOut (enables_doPortSendCode p c k s)
  | refSelect y p => exact keepsEnables_carryOut (enables_doRefSelect y p s)
  | attention => exact keepsEnables_carryOut (enables_doAttention s)
  | deviceQuery => exact keepsEnables_carryOut rfl
  | deviceReset => exact keepsEnables_carryOut (enables_doDeviceReset s)
  | writeRequest via bits => exact keepsEnables_next (enables_writePart s via bits)
  | writeTransactionEnd p => exact keepsEnables_next (enables_setMport s p _)
  | readResponse k => exact keepsEnables_next (enables_readPart s .m k)
  | readResponseEnd p => exact keepsEnables_next (enables_setMport s p _)
  | readStatus k => exact keepsEnables_next (enables_statusPart s .m true k)
  | i2cRead a k => exact keepsEnables_next (enables_i2cRead s a k)
  | lastOperationSet a d => exact keepsEnables_next (enables_addressed (fun s => enables_i2cWrite s d) s a)
  | handOver => exact keepsEnables_handOver s
  | responsePlaced => exact keepsEnables_responsePlaced s
  | rstRelease r => exact keepsEnables_guard rfl
  | losAsserted n | losDeasserted n => exact keepsEnables_next (enables_changePort s n _)
  | candidateFound n x | allOnesPeriod n x => exact keepsEnables_next (enables_changePort s n _)
  | frameWriteComplete n b | slipBufferSlotWritten n b =>
    exact keepsEnables_next (enables_changePort s n _)
  | sendCodeBurstEnd n => exact keepsEnables_next (enables_changePort s n _)
  | verifyCheck n a b => exact keepsEnables_next (enables_changeCounted s n _)
  | alignedFrameReceived n k a b => exact keepsEnables_alignedFrameReceived n k a b s
  | sfrMark k => exact keepsEnables_guard (enables_mark s k)
  | oscillatorFrameStart => exact keepsEnables_oscillatorFrameStart s
  | markWindowClose | goodMarkTimeout => exact keepsEnables_guard rfl
  | supervisionIntervalExpiry turn => exact keepsEnables_supervisionIntervalExpiry turn s
  | waitToRestoreExpiry turn => exact keepsEnables_next (enables_foldl (enables_expireWait turn) _ s)
  | slipPeriodEnd turn => exact keepsEnables_slipPeriodEnd turn s
  | loopTimerExpiry turn => exact keepsEnables_next (enables_changePorts s _)

end Sys2Proof.Proofs
end

section
/-! PROOFS. ATTN_ENABLE, DEVICE_QUERY's last byte and RST_ASSERT on the ATN enables, and the attention lines
(R168, R169). -/

namespace Sys2Proof.Proofs

open Sys2Proof Sys2Proof.Machine

/-! ### The attention lines (R169) -/

theorem atnM_iff (s : State) : s.atnM = true ↔ s.enableM = true ∧ s.attention ≠ [] := by
  simp [State.atnM]

theorem atnS_iff (s : State) : s.atnS = true ↔ s.enableS = true ∧ s.attention ≠ [] := by
  simp [State.atnS]

/-- The meaning the dispatch gives RST_ASSERT. -/
theorem exec_rstAssert (s : State) : exec .rstAssert s = .next s.powerOn := rfl

/-! ### DEVICE_QUERY (R185) -/

/-- The meaning the dispatch gives the request. -/
theorem exec_deviceQuery (s : State) : exec .deviceQuery s = execDeviceQuery s := rfl

theorem execDeviceQuery_ok {s : State} {x : Execution} (hx : s.handed .deviceQuery x) :
    execDeviceQuery s = .next (s.answering x ⟨.ok, s.deviceData⟩) := by
  rw [execDeviceQuery, carryOut_handed hx, Answer.ok]

theorem getLast?_deviceData (s : State) : s.deviceData.getLast? = some s.enableByte := by
  rw [State.deviceData, List.getLast?_concat]

/-! ### A field that is 0 or 1 when present -/

theorem bit?_eq_none {b : Byte} : bit? b = none ↔ 2 ≤ b.toNat := by
  unfold bit?
  split
  case isTrue h0 => simp [h0]
  case isFalse h0 =>
    split
    case isTrue h1 => simp [h1]
    case isFalse h1 =>
      have hb : 2 ≤ b.toNat := by bv_omega
      simp [hb]

/-- A checked field gives the new value: the old one where it is absent, its own where it is present. -/
theorem optBit?_getD {y : Option Byte} {old new : Bool} (habsent : y = none → new = old)
    (hpresent : ∀ v, y = some v → (v = 0 ∧ new = false) ∨ (v = 1 ∧ new = true)) :
    ∃ b, optBit? y = some b ∧ b.getD old = new := by
  cases y with
  | none => exact ⟨none, rfl, (habsent rfl).symm⟩
  | some v =>
    refine ⟨some new, ?_, rfl⟩
    obtain ⟨rfl, rfl⟩ | ⟨rfl, rfl⟩ := hpresent v rfl
    · rfl
    · rfl

/-! ### ATTN_ENABLE (R168) -/

/-- The meaning the dispatch gives the request. -/
theorem exec_attnEnable (m e : Option Byte) (s : State) : exec (.attnEnable m e) s = execAttnEnable m e s :=
  rfl

theorem doAttnEnable_absent (s : State) : doAttnEnable none none s = (.bare .badParam, s) := rfl

theorem doAttnEnable_above {m e : Option Byte} {b : Byte} (hb : m = some b ∨ e = some b) (h : 2 ≤ b.toNat)
    (s : State) : doAttnEnable m e s = (.bare .badParam, s) := by
  have hnone : optBit? (some b) = none := by rw [optBit?, bit?_eq_none.mpr h, Option.map_none]
  unfold doAttnEnable
  obtain rfl | rfl := hb
  · rw [hnone]
  · rw [hnone]
    split
    case h_1 h => cases h
    case h_2 => rfl

theorem doAttnEnable_stores {m e : Option Byte} {s : State} {bm bs : Option Bool}
    (hsome : m ≠ none ∨ e ≠ none) (hm : optBit? m = some bm) (he : optBit? e = some bs) :
    doAttnEnable m e s =
      (.ok [flagBit (bm.getD s.enableM) 1 + flagBit (bs.getD s.enableS) 2],
        { s with enableM := bm.getD s.enableM, enableS := bs.getD s.enableS }) := by
  have hany : (m.isSome || e.isSome) = true := by
    simpa [Option.isSome_iff_ne_none] using hsome
  simp only [doAttnEnable, hm, he, hany, if_true, State.enableByte]

section
variable {m e : Option Byte} {s : State} {x : Execution} (hx : s.handed (.attnEnable m e) x)
include hx

theorem execAttnEnable_badParam
    (hbad : (m = none ∧ e = none) ∨ ∃ b, (m = some b ∨ e = some b) ∧ 2 ≤ b.toNat) :
    execAttnEnable m e s = .next (s.answering x ⟨.badParam, []⟩) := by
  rw [execAttnEnable, carryOut_handed hx]
  obtain ⟨rfl, rfl⟩ | ⟨b, hb, h⟩ := hbad
  · rw [doAttnEnable_absent, Answer.bare]
  · rw [doAttnEnable_above hb h, Answer.bare]

theorem execAttnEnable_ok {a b : Bool} (hsome : m ≠ none ∨ e ≠ none) (hma : m = none → a = s.enableM)
    (hm : ∀ v, m = some v → (v = 0 ∧ a = false) ∨ (v = 1 ∧ a = true)) (heb : e = none → b = s.enableS)
    (he : ∀ v, e = some v → (v = 0 ∧ b = false) ∨ (v = 1 ∧ b = true)) :
    execAttnEnable m e s = .next (({ s with enableM := a, enableS := b } : State).answering x
      ⟨.ok, [flagBit a 1 + flagBit b 2]⟩) := by
  obtain ⟨bm, hbm, rfl⟩ := optBit?_getD hma hm
  obtain ⟨bs, hbs, rfl⟩ := optBit?_getD heb he
  rw [execAttnEnable, carryOut_handed hx, doAttnEnable_stores hsome hbm hbs, Answer.ok]

end

/-- Settles O49: the lines, RST_ASSERT, every other command, DEVICE_QUERY and ATTN_ENABLE. -/
theorem attentionLinesFollowListAndEnables : Obligations.AttentionLinesFollowListAndEnables := by
  refine ⟨fun s => ⟨atnM_iff s, atnS_iff s⟩, ?_, ?_, ?_, ?_⟩
  · intro s t h
    rw [exec_rstAssert] at h
    cases h
    exact ⟨rfl, rfl, rfl, rfl⟩
  · intro c s t h hr ha
    exact enables_eq_iff.mp (exec_keepsEnables hr ha s t h)
  · intro s x hx
    exact ⟨s.deviceData, execDeviceQuery_ok hx, getLast?_deviceData s⟩
  · intro m e s x hx
    exact ⟨execAttnEnable_badParam hx, fun a b => execAttnEnable_ok hx⟩

end Sys2Proof.Proofs
end

section
/-! PROOFS. What a command can do, said once: the marks and system frame starts it makes, then one change
of ports, tables or list, then what it does to the buses and the executor. Every statement about all commands
goes through `exec_effect`. -/

namespace Sys2Proof.Proofs

open Sys2Proof Sys2Proof.Machine

/-! ### The parts of an effect -/

/-- What a command can make of one port; the flag says whether a maintenance code was recognized. -/
inductive PortChange (p : Port) : Port → Bool → Prop
  | los (level : Bool) : PortChange p ({ p with los := level }).followLos false
  | candidate (first : Place) (bits : List Bool) : PortChange p (p.candidate first bits) false
  | verify (bits : List Bool) : PortChange p (p.verify bits).1 (p.verify bits).2
  | receive (lastStart moment : Nat) (bits : List Bool) :
      PortChange p ((p.locate lastStart moment bits).receive bits).1
        ((p.locate lastStart moment bits).receive bits).2
  | writeSlot (bits : List Bool) : PortChange p (p.writeSlot bits) false
  | complete (bits : List Bool) : PortChange p (p.complete bits) false
  | periodBits (first : Place) (bits : List Bool) : PortChange p (p.periodBits first bits) false
  | endBurst : PortChange p { p with maint := p.maint.endBurst } false
  | judgeSlips : PortChange p p.judgeSlips false
  | expireLoop (turn : Turn) : PortChange p (p.expireLoop turn) false
  | set (q : PortSetReq) (b : PortSetBits) : PortChange p (p.set q b) false
  | setLoop (l : LoopState) (henable : p.config.enable = true) (hl : l ≠ .returnCode) :
      PortChange p (p.setLoop l) false
  | setBurst (c : Code) (count : Nat) (henable : p.config.enable = true) (hcount : count ≤ 65535) :
      PortChange p { p with maint := p.maint.setBurst c count } false
  | clearCounts : PortChange p p.clearCounts false

/-- The commands that can make a mark or a system frame start: an edge on SFR, the oscillator, and a frame of
the selected port (R23, R28). -/
def CanStart (c : Instr) (s : State) : Prop :=
  (∀ m, c ≠ .sfrMark m) → c ≠ .oscillatorFrameStart →
    ∃ n m a b, c = .alignedFrameReceived n m a b ∧ s.ref.selection = .port n

/-- A mark of the selected reference, where a selected port is ALIGNED, or a start by the oscillator. -/
inductive MarkStep : State → State → Prop
  | mark (s : State) (moment : Nat) (h : ∀ n, s.ref.selection = .port n → s.ports[n].aligned = true) :
      MarkStep s (s.mark moment)
  | oscillator (s : State) : MarkStep s s.oscillatorStart

/-- A record request, carried out on a record that has passed its checks. -/
inductive RecordAct : (Nat → Record → State → Answer × State) → Prop
  | modify (q : ModifyReq) : RecordAct (modifyRecord q)
  | retire : RecordAct retireRecord
  | hold : RecordAct holdRecord
  | release : RecordAct releaseRecord
  | protect (q : ProtectReq) : RecordAct (protectRecord q)
  | unprotect : RecordAct unprotectRecord
  | switch (command : Byte) : RecordAct (switchRecord command)

/-- What a command but RST_ASSERT changes of ports, tables, reference and list, its marks apart. -/
inductive Alters (c : Instr) (s : State) : State → Prop
  | none : Alters c s s
  | port (n : PortNo) (q : Port) (code : Bool) (h : PortChange s.ports[n] q code) :
      Alters c s (s.changeCounted n (q, code))
  | sweep (f : Port → Port) (h : ∀ p, PortChange p (f p) false) (period : Period) :
      Alters c s { s.changePorts f with slipPeriod := period }
  | evaluate (turn : Turn) (period : Period) : Alters c s { s.evaluate turn with interval := period }
  | expireWaits (turn : Turn) : Alters c s (s.records.keys.foldl (State.expireWait turn) s)
  | missWindow (hok : s.ref.state = .refOk) : Alters c s { s with ref := s.ref.missWindow }
  | markTimeout (hfree : s.ref.state = .freewheel) :
      Alters c s { s with ref := { s.ref with good := 0, lastMark := none } }
  | choose (x : RefSelection) : Alters c s { s with ref := s.ref.choose x }
  | enables (m e : Bool) : Alters c s { s with enableM := m, enableS := e }
  | fetch (hc : c = .attention) (e : Entry) (rest : List Entry) (h : s.attention = e :: rest) :
      Alters c s { s with attention := rest }
  | install (q : ConnectReq) (p : ConnectPlan) (id : Nat) (hc : c = .connect q) (hp : connectPlan q = some p)
      (hfree : ∀ u ∈ (newRecord q p).triples, s.slotMap.get u.key = Option.none)
      (hid : s.records.lowestFree Config.records = some id) : Alters c s (s.install id q p)
  | record (act : Nat → Record → State → Answer × State) (hact : RecordAct act) (id : Nat) (r : Record)
      (hid : id < Config.records) (hr : s.records.get id = some r) : Alters c s (act id r s).2
  | deviceReset (hc : c = .deviceReset) : Alters c s (doDeviceReset s).2

/-- A bus transaction's part, or a step of the arbiter and the executor. -/
inductive BusMove (s : State) : State → Prop
  | write (via : Via) (part : BusPart (List Bool)) : BusMove s (s.writePart via part)
  | endWrite (p : MPortId) : BusMove s (s.setMport p (s.mport p).endWrite)
  | read (p : MPortId) (part : BusPart Nat) : BusMove s (s.readPart p part)
  | endRead (p : MPortId) : BusMove s (s.setMport p (s.mport p).endRead)
  | status (p : MPortId) (clears : Bool) (part : BusPart Nat) : BusMove s (s.statusPart p clears part)
  | i2cRead (address : BitVec 7) (part : BusPart Nat) : BusMove s (s.i2cRead address part)
  | i2cWrite (address : BitVec 7) (data : List Byte) :
      BusMove s (s.addressed address fun s => s.i2cWrite data)
  | handOn (p : MPortId) (hx : s.executor = none) (hp : s.nextPort = some p) : BusMove s (s.handOn p)
  | place (x : Execution) (a : Answer) (hx : s.executor = some x) (ha : x.answer = some a) :
      BusMove s (s.place x a)
  | release (r : Release) (h : s.rst = true) : BusMove s (s.released r)

/-- What becomes of the buses and the executor: nothing, the answer to the request in hand, or a bus move. -/
inductive Finish (c : Instr) (s : State) : State → Prop
  | none : Finish c s s
  | answer (hc : (encodeParams c).isSome = true) (x : Execution) (a : Answer) (hx : s.handed c x)
      (ha : a.data.length ≤ 44) : Finish c s (s.answering x a)
  | bus (t : State) (h : BusMove s t) : Finish c s t

/-- What a command but RST_ASSERT does: its marks, its change, and what becomes of buses and executor. -/
def Effect (c : Instr) (s t : State) : Prop :=
  ∃ u v, (CanStart c s ∧ Relation.ReflTransGen MarkStep s u ∨ u = s) ∧ Alters c u v ∧ Finish c v t

theorem Effect.of_change {c : Instr} {s t : State} (h : Alters c s t) : Effect c s t :=
  ⟨s, t, .inr rfl, h, .none⟩

theorem Effect.of_bus {c : Instr} {s t : State} (h : BusMove s t) : Effect c s t :=
  ⟨s, s, .inr rfl, .none, .bus t h⟩

theorem Effect.refl (c : Instr) (s : State) : Effect c s s := .of_change .none

theorem Effect.of_marks {c : Instr} {s t : State} (hc : CanStart c s)
    (h : Relation.ReflTransGen MarkStep s t) : Effect c s t :=
  ⟨t, t, .inl ⟨hc, h⟩, .none, .none⟩

/-- A port's change that is not counted is one with no code recognized. -/
theorem Alters.of_changePort {c : Instr} {s : State} {n : PortNo} {q : Port}
    (h : PortChange s.ports[n] q false) : Alters c s (s.changePort n q) := .port n q false h

/-- A change of a port that sets off nothing. -/
theorem Alters.of_setPort {c : Instr} {s : State} {n : PortNo} {q : Port}
    (h : PortChange s.ports[n] q false)
    (hd : q.sourceDefect = s.ports[n].sourceDefect) (hf : q.maint.farAlarm = s.ports[n].maint.farAlarm)
    (hl : q.maint.loop = s.ports[n].maint.loop) (ha : q.aligned = s.ports[n].aligned) :
    Alters c s { s with ports := s.ports.set n q } := by
  rw [← changePort_quiet s n q hd hf hl ha]
  exact .of_changePort h

/-- A sweep over the ports that leaves the slip period. -/
theorem Alters.of_changePorts {c : Instr} {s : State} {f : Port → Port}
    (h : ∀ p, PortChange p (f p) false) : Alters c s (s.changePorts f) := by
  have hsweep := Alters.sweep (c := c) (s := s) f h (s.changePorts f).slipPeriod
  generalize s.changePorts f = t at hsweep ⊢
  exact hsweep

/-! ### The executor's part of a request -/

/-- A change leaves the executor to the answer. -/
structure Done (c : Instr) (s : State) (r : Answer × State) : Prop where
  change : Alters c s r.2
  executor : r.2.executor = s.executor
  short : r.1.data.length ≤ 44

theorem Done.refused {c : Instr} {s : State} {a : Answer} (h : a.data.length ≤ 44) : Done c s (a, s) :=
  ⟨.none, rfl, h⟩

/-- A refusal without data. -/
theorem Done.bare {c : Instr} {s : State} (st : Status) : Done c s (.bare st, s) :=
  .refused (Nat.zero_le _)

theorem effect_carryOut {i : Instr} {act : State → Answer × State} {s : State}
    (hi : (encodeParams i).isSome = true) (h : Done i s (act s)) :
    ∃ t, carryOut i act s = .next t ∧ Effect i s t := by
  obtain ⟨x, hx, hc⟩ | ⟨-, hc⟩ := carryOut_next i act s
  · have hx' : (act s).2.handed i x := ⟨h.executor.trans hx.1, hx.2⟩
    exact ⟨_, hc, s, _, .inr rfl, h.change, .answer hi x _ hx' h.short⟩
  · exact ⟨_, hc, .refl i s⟩

theorem done_onRecord {c : Instr} {id : Half} {act : Nat → Record → State → Answer × State} {s : State}
    (hact : ∀ r, id.toNat < 512 → s.records.get id.toNat = some r → Done c s (act id.toNat r s)) :
    Done c s (onRecord id act s) := by
  by_cases hid : id.toNat < 512
  · cases hr : s.records.get id.toNat with
    | none => rw [onRecord_none hid hr]; exact .bare _
    | some r => rw [onRecord_some hid hr]; exact hact r hid hr
  · rw [onRecord_range (Nat.le_of_not_lt hid)]
    exact .bare _

/-- The record requests behind the checks of R49. -/
theorem done_onRevision {c : Instr} {id : Half} {expected : Byte}
    {act : Nat → Record → State → Answer × State} {s : State} (hact : RecordAct act)
    (hx : ∀ r, (act id.toNat r s).2.executor = s.executor)
    (hshort : ∀ r, (act id.toNat r s).1.data.length ≤ 44) :
    Done c s (onRevision id expected act s) := by
  refine done_onRecord fun r hid hr => ?_
  split
  · exact ⟨.record act hact _ r hid hr, hx r, hshort r⟩
  · exact .refused (by simp [Answer.recordRefusal])

theorem done_onPort {c : Instr} {port : Byte} {act : PortNo → State → Answer × State} {s : State}
    (hact : ∀ n, Done c s (act n s)) : Done c s (onPort port act s) := by
  unfold onPort
  split
  · exact hact _
  · exact .bare _

/-! ### The record requests leave the executor alone, and their answers are short -/

@[simp] theorem length_idBytes (id : Nat) : (idBytes id).length = 2 := rfl
@[simp] theorem length_countBytes (x : Nat) : (countBytes x).length = 2 := rfl
@[simp] theorem length_halfBytes (x : Half) : (halfBytes x).length = 2 := rfl
@[simp] theorem length_wordBytes (x : BitVec 32) : (wordBytes x).length = 4 := rfl
@[simp] theorem length_endBytes (e : End) : e.bytes.length = 2 := rfl
@[simp] theorem length_healthBytes (h : Health) : h.bytes.length = 2 := rfl

theorem length_slotTaken (t : Triple) (holder : Nat) : (Answer.slotTaken t holder).data.length = 5 := rfl

theorem length_recordOk (id : Nat) (state revision : Byte) :
    (Answer.recordOk id state revision).data.length = 4 := rfl

theorem RecordAct.keeps_executor {act : Nat → Record → State → Answer × State} (h : RecordAct act)
    (id : Nat) (r : Record) (s : State) : (act id r s).2.executor = s.executor := by
  cases h with
  | modify q =>
    unfold modifyRecord modifyAdd modifyRemove
    repeat' split
    all_goals rfl
  | retire => unfold retireRecord; split <;> simp [wrongState]
  | hold => unfold holdRecord; split <;> rfl
  | release => unfold releaseRecord; split <;> rfl
  | protect q =>
    unfold protectRecord
    repeat' split
    all_goals rfl
  | unprotect =>
    unfold unprotectRecord
    repeat' split
    all_goals rfl
  | switch command =>
    unfold switchRecord
    repeat' split
    all_goals simp [wrongState]

theorem RecordAct.short_answer {act : Nat → Record → State → Answer × State} (h : RecordAct act)
    (id : Nat) (r : Record) (s : State) : (act id r s).1.data.length ≤ 44 := by
  refine le_trans (b := 8) ?_ (by decide)
  cases h with
  | modify q =>
    unfold modifyRecord modifyAdd modifyRemove
    repeat' split
    all_goals exact of_decide_eq_true rfl
  | retire => unfold retireRecord; split <;> exact of_decide_eq_true rfl
  | hold => unfold holdRecord; split <;> exact of_decide_eq_true rfl
  | release => unfold releaseRecord; split <;> exact of_decide_eq_true rfl
  | protect q =>
    unfold protectRecord
    repeat' split
    all_goals exact of_decide_eq_true rfl
  | unprotect =>
    unfold unprotectRecord
    repeat' split
    all_goals exact of_decide_eq_true rfl
  | switch command =>
    unfold switchRecord
    repeat' split
    all_goals exact of_decide_eq_true rfl

theorem done_recordRequest {c : Instr} {id : Half} {expected : Byte}
    {act : Nat → Record → State → Answer × State} (s : State) (hact : RecordAct act) :
    Done c s (onRevision id expected act s) :=
  done_onRevision hact (fun r => hact.keeps_executor _ r s) (fun r => hact.short_answer _ r s)

end Sys2Proof.Proofs
end

section
/-! PROOFS. Every command but RST_ASSERT has an effect: the requests by what they do behind their checks, the
other commands by their guards. -/

namespace Sys2Proof.Proofs

open Sys2Proof Sys2Proof.Machine

/-! ### Requests -/

theorem done_doConnect (q : ConnectReq) (s : State) : Done (.connect q) s (doConnect q s) := by
  unfold doConnect
  split
  case h_1 => exact .bare _
  case h_2 p hp =>
    split
    case h_1 => exact .refused (by rw [length_slotTaken]; decide)
    case h_2 hfree =>
      split
      case h_1 => exact .bare _
      case h_2 id hid =>
        exact ⟨.install q p id rfl hp (firstHeld_none.mp hfree) hid, rfl, by rw [length_recordOk]; decide⟩

theorem length_destsBytes (s : State) (l : List Dest) : (padTo 8 (l.flatMap s.destBytes)).length = 8 := by
  simp only [padTo, List.length_take, List.length_append, List.length_replicate]
  omega

theorem length_contextBytes (x : Option (Nat × Context)) : (contextBytes x).length = 10 := by
  cases x <;> rfl

theorem length_optEnd (x : Option End) : (x.elim [0, 0] End.bytes).length = 2 := by cases x <;> rfl

theorem length_optHealth (x : Option Health) : (x.elim [0, 0] Health.bytes).length = 2 := by
  cases x <;> rfl

/-- The record image is 43 bytes long (R190). -/
theorem length_recordImage (s : State) (id : Nat) (r : Record) : (s.recordImage id r).length = 43 := by
  simp only [State.recordImage, List.length_append, List.length_cons, List.length_nil, length_idBytes,
    length_endBytes, length_destsBytes, length_optEnd, length_wordBytes, length_healthBytes, length_optHealth,
    length_contextBytes]

theorem length_role (r : Record) (t : Triple) : (r.role t).length = 4 := by
  unfold Record.role
  repeat' split
  all_goals rfl

theorem done_query (id : Half) (s : State) :
    Done (.query id) s (onRecord id (fun k r s => (.ok (s.recordImage k r), s)) s) := by
  refine done_onRecord fun r _ _ => .refused ?_
  simp [Answer.ok, length_recordImage]

theorem done_doFind (port slot direction : Byte) (s : State) :
    Done (.find port slot direction) s (doFind port slot direction s) := by
  unfold doFind
  split
  case h_1 => exact .bare _
  case h_2 t _ =>
    split
    case h_1 => exact .bare _
    case h_2 id _ =>
      split
      case h_1 r _ => exact .refused (by simp [Answer.ok, length_role])
      case h_2 => exact .bare _

theorem done_doNext (start : Half) (s : State) : Done (.nextRecord start) s (doNext start s) := by
  unfold doNext
  split
  case isTrue => exact .bare _
  case isFalse =>
    split
    case h_1 => exact .refused (by simp [Answer.ok])
    case h_2 => exact .bare _

theorem done_doPortSet (q : PortSetReq) (s : State) : Done (.portSet q) s (doPortSet q s) := by
  refine done_onPort fun n => ?_
  split
  case h_1 b _ => exact ⟨.of_changePort (.set q b), executor_changePort s n _, Nat.zero_le _⟩
  case h_2 => exact .bare _

theorem done_portQuery (port : Byte) (s : State) :
    Done (.portQuery port) s (onPort port (fun n s => (.ok (s.ports[n].image n), s)) s) :=
  done_onPort fun n => .refused (by simp [Answer.ok, Port.image])

theorem done_portClearCounts (port : Byte) (s : State) :
    Done (.portClearCounts port) s (onPort port (fun n s =>
      (.ok (countBytes s.ports[n].slip.slips ++ countBytes s.ports[n].framer.erroredCount),
        { s with ports := s.ports.set n s.ports[n].clearCounts })) s) :=
  done_onPort fun n => ⟨.of_setPort .clearCounts rfl rfl rfl rfl, rfl, by simp [Answer.ok]⟩

theorem loopCommand?_ne_returnCode {b : Byte} {l : LoopState} (h : loopCommand? b = some l) :
    l ≠ .returnCode := by
  rintro rfl
  unfold loopCommand? at h
  repeat' split at h
  all_goals cases h

theorem done_doPortLoop (port command : Byte) (s : State) :
    Done (.portLoop port command) s (doPortLoop port command s) := by
  refine done_onPort fun n => ?_
  split
  case h_1 => exact .bare _
  case h_2 l hl =>
    split
    case isTrue he =>
      exact ⟨.of_changePort (.setLoop l he (loopCommand?_ne_returnCode hl)), executor_changePort s n _,
        of_decide_eq_true rfl⟩
    case isFalse => exact .bare _

/-- A burst leaves the source defect, the far alarm, the loop and the alignment. -/
theorem setBurst_quiet (m : Maint) (c : Code) (count : Nat) :
    (m.setBurst c count).farAlarm = m.farAlarm ∧ (m.setBurst c count).loop = m.loop := by
  unfold Maint.setBurst
  split <;> exact ⟨rfl, rfl⟩

theorem done_doPortSendCode (port code : Byte) (count : Half) (s : State) :
    Done (.portSendCode port code count) s (doPortSendCode port code count s) := by
  refine done_onPort fun n => ?_
  split
  case h_1 => exact .bare _
  case h_2 c _ =>
    split
    case isTrue he =>
      obtain ⟨hf, hl⟩ := setBurst_quiet s.ports[n].maint c count.toNat
      have hcount : count.toNat ≤ 65535 := Nat.le_of_lt_succ count.isLt
      exact ⟨.of_setPort (.setBurst c _ he hcount) rfl hf hl rfl, rfl, of_decide_eq_true rfl⟩
    case isFalse => exact .bare _

theorem length_selectionBytes (r : RefMonitor) : r.selectionBytes.length = 2 := by
  unfold RefMonitor.selectionBytes
  split <;> rfl

theorem done_doRefSelect (selection port : Byte) (s : State) :
    Done (.refSelect selection port) s (doRefSelect selection port s) := by
  unfold doRefSelect
  split
  case h_1 => exact .bare _
  case h_2 x _ => exact ⟨.choose x, rfl, by simp [Answer.ok, length_selectionBytes]⟩

theorem length_recordNow (s : State) (id : Nat) : (s.recordNow id).length = 6 := by
  unfold State.recordNow
  split <;> rfl

theorem length_attentionData (s : State) (e : Entry) (left : Nat) :
    (s.attentionData e left).length ≤ 12 := by
  unfold State.attentionData
  split
  · simp [length_recordNow]
  · simp [State.portNow]

theorem done_doAttention (s : State) : Done .attention s (doAttention s) := by
  unfold doAttention
  split
  case h_1 => exact .bare _
  case h_2 e rest h => exact ⟨.fetch rfl e rest h, rfl, (length_attentionData s e _).trans (by decide)⟩

theorem done_doAttnEnable (m e : Option Byte) (s : State) :
    Done (.attnEnable m e) s (doAttnEnable m e s) := by
  unfold doAttnEnable
  split
  case h_1 bm bs _ _ =>
    split
    · exact ⟨.enables _ _, rfl, of_decide_eq_true rfl⟩
    · exact .bare _
  case h_2 => exact .bare _

theorem done_deviceQuery (s : State) : Done .deviceQuery s (.ok s.deviceData, s) :=
  .refused (by simp [Answer.ok, State.deviceData, length_selectionBytes])

theorem executor_releaseInward (before s : State) (n : PortNo) :
    (before.releaseInward s n).executor = s.executor := by
  unfold State.releaseInward
  split
  · exact executor_changePort s n _
  · rfl

/-- An update that leaves a part of the state alone does so however often it is made. -/
theorem foldl_keeps {α β : Type} {g : State → β} {f : State → α → State} (hf : ∀ s a, g (f s a) = g s)
    (l : List α) (s : State) : g (l.foldl f s) = g s := by
  induction l generalizing s with
  | nil => rfl
  | cons a l ih => rw [List.foldl_cons, ih, hf]

theorem done_doDeviceReset (s : State) : Done .deviceReset s (doDeviceReset s) := by
  refine ⟨.deviceReset rfl, ?_, ?_⟩
  · have h := foldl_keeps (g := State.executor) (executor_releaseInward s) (List.finRange 16) s.emptied
    unfold doDeviceReset
    split
    · exact (executor_setMport ..).trans h
    · exact h
  · unfold doDeviceReset
    split <;> exact Nat.zero_le _

/-! ### Marks and starts -/

theorem marks_takeLateMark (s : State) : Relation.ReflTransGen MarkStep s s.takeLateMark := by
  unfold State.takeLateMark
  split
  case h_1 m hm =>
    refine .single (.mark s m fun n hn => ?_)
    unfold State.lateMark at hm
    simp only [hn] at hm
    split at hm
    case isTrue h => exact h.1
    case isFalse => cases hm
  case h_2 => exact .refl

theorem effect_oscillatorFrameStart (s : State) :
    ∃ t, exec .oscillatorFrameStart s = .next t ∧ Effect .oscillatorFrameStart s t := by
  have hc : CanStart .oscillatorFrameStart s := fun _ h => absurd rfl h
  change ∃ t, execOscillatorFrameStart s = .next t ∧ _
  unfold execOscillatorFrameStart
  split
  · exact ⟨s, rfl, .refl _ s⟩
  · refine ⟨_, rfl, .of_marks hc ?_⟩
    split
    · exact (marks_takeLateMark s).tail (.oscillator _)
    · exact marks_takeLateMark s

theorem effect_sfrMark (m : Nat) (s : State) : ∃ t, exec (.sfrMark m) s = .next t ∧ Effect (.sfrMark m) s t := by
  have hc : CanStart (.sfrMark m) s := fun h => absurd rfl (h m)
  change ∃ t, execSfrMark m s = .next t ∧ _
  unfold execSfrMark
  split
  case isTrue h =>
    refine ⟨_, rfl, .of_marks hc (.single (.mark s m fun n hn => ?_))⟩
    rw [h.2] at hn
    cases hn
  case isFalse => exact ⟨s, rfl, .refl _ s⟩

theorem begins_aligned {p : Port} {bits : List Bool} (h : p.begins bits = true) : p.aligned = true := by
  unfold Port.begins at h
  simp only [Bool.and_eq_true] at h
  exact h.1.1

/-- Only a frame of the selected port makes a mark. -/
theorem marks_frameMark (n : PortNo) (m : Nat) (a b : List Bool) (s : State) :
    CanStart (.alignedFrameReceived n m a b) s ∧
      Relation.ReflTransGen MarkStep s (s.frameMark n m (a ++ b)) ∨ s.frameMark n m (a ++ b) = s := by
  unfold State.frameMark
  split
  case isTrue h =>
    obtain ⟨hb, hsel, -⟩ := h
    refine .inl ⟨fun _ _ => ⟨n, m, a, b, rfl, hsel⟩, .single (.mark s _ fun k hk => ?_)⟩
    obtain rfl : n = k := RefSelection.port.inj (hsel.symm.trans hk)
    exact begins_aligned hb
  case isFalse => exact .inr rfl

theorem effect_alignedFrameReceived (n : PortNo) (m : Nat) (a b : List Bool) (s : State) :
    ∃ t, exec (.alignedFrameReceived n m a b) s = .next t ∧ Effect (.alignedFrameReceived n m a b) s t :=
  ⟨_, rfl, _, _, marks_frameMark n m a b s, .port n _ _ (.receive _ m (a ++ b)), .none⟩

/-! ### The other commands -/

theorem effect_of_change {c : Instr} {s t : State} (ht : exec c s = .next t) (h : Alters c s t) :
    ∃ t, exec c s = .next t ∧ Effect c s t := ⟨t, ht, .of_change h⟩

theorem effect_of_bus {c : Instr} {s t : State} (ht : exec c s = .next t) (h : BusMove s t) :
    ∃ t, exec c s = .next t ∧ Effect c s t := ⟨t, ht, .of_bus h⟩

/-- A command that changes something under a guard and otherwise nothing. -/
theorem effect_of_guard {c : Instr} {g : Prop} [Decidable g] {s t : State}
    (ht : exec c s = if g then .next t else .next s) (h : g → Effect c s t) :
    ∃ t, exec c s = .next t ∧ Effect c s t := by
  rw [ht]
  split
  case isTrue hg => exact ⟨t, rfl, h hg⟩
  case isFalse => exact ⟨s, rfl, .refl c s⟩

theorem effect_handOver (s : State) : ∃ t, exec .handOver s = .next t ∧ Effect .handOver s t := by
  change ∃ t, execHandOver s = .next t ∧ _
  unfold execHandOver
  split
  case h_1 p hx hp => exact ⟨_, rfl, .of_bus (.handOn p hx hp)⟩
  case h_2 => exact ⟨s, rfl, .refl _ s⟩

theorem effect_responsePlaced (s : State) :
    ∃ t, exec .responsePlaced s = .next t ∧ Effect .responsePlaced s t := by
  change ∃ t, execResponsePlaced s = .next t ∧ _
  unfold execResponsePlaced
  split
  case h_1 x hx =>
    split
    case h_1 a ha => exact ⟨_, rfl, .of_bus (.place x a hx ha)⟩
    case h_2 => exact ⟨s, rfl, .refl _ s⟩
  case h_2 => exact ⟨s, rfl, .refl _ s⟩

/-- Every command but RST_ASSERT takes a next state, by an effect. -/
theorem exec_effect {c : Instr} (hc : c ≠ .rstAssert) (s : State) :
    ∃ t, exec c s = .next t ∧ Effect c s t := by
  cases c with
  | rstAssert => exact absurd rfl hc
  | connect q => exact effect_carryOut rfl (done_doConnect q s)
  | modify q => exact effect_carryOut rfl (done_recordRequest s (.modify q))
  | retire id e => exact effect_carryOut rfl (done_recordRequest s .retire)
  | hold id e => exact effect_carryOut rfl (done_recordRequest s .hold)
  | release id e => exact effect_carryOut rfl (done_recordRequest s .release)
  | query id => exact effect_carryOut rfl (done_query id s)
  | find p k d => exact effect_carryOut rfl (done_doFind p k d s)
  | nextRecord k => exact effect_carryOut rfl (done_doNext k s)
  | protect q => exact effect_carryOut rfl (done_recordRequest s (.protect q))
  | unprotect id e => exact effect_carryOut rfl (done_recordRequest s .unprotect)
  | switch id e k => exact effect_carryOut rfl (done_recordRequest s (.switch k))
  | portSet q => exact effect_carryOut rfl (done_doPortSet q s)
  | portQuery p => exact effect_carryOut rfl (done_portQuery p s)
  | portClearCounts p => exact effect_carryOut rfl (done_portClearCounts p s)
  | portLoop p k => exact effect_carryOut rfl (done_doPortLoop p k s)
  | portSendCode p k count => exact effect_carryOut rfl (done_doPortSendCode p k count s)
  | refSelect y p => exact effect_carryOut rfl (done_doRefSelect y p s)
  | attention => exact effect_carryOut rfl (done_doAttention s)
  | attnEnable m e => exact effect_carryOut rfl (done_doAttnEnable m e s)
  | deviceQuery => exact effect_carryOut rfl (done_deviceQuery s)
  | deviceReset => exact effect_carryOut rfl (done_doDeviceReset s)
  | writeRequest via part => exact effect_of_bus rfl (.write via part)
  | writeTransactionEnd p => exact effect_of_bus rfl (.endWrite p)
  | readResponse part => exact effect_of_bus rfl (.read .m part)
  | readResponseEnd p => exact effect_of_bus rfl (.endRead p)
  | readStatus part => exact effect_of_bus rfl (.status .m true part)
  | i2cRead a part => exact effect_of_bus rfl (.i2cRead a part)
  | lastOperationSet a data => exact effect_of_bus rfl (.i2cWrite a data)
  | handOver => exact effect_handOver s
  | responsePlaced => exact effect_responsePlaced s
  | rstRelease r => exact effect_of_guard (g := s.rst = true) rfl fun h => .of_bus (.release r h)
  | losAsserted n => exact effect_of_change rfl (.of_changePort (.los true))
  | losDeasserted n => exact effect_of_change rfl (.of_changePort (.los false))
  | candidateFound n x => exact effect_of_change rfl (.of_changePort (.candidate x.first x.bits))
  | verifyCheck n a b => exact effect_of_change rfl (.port n _ _ (.verify (a ++ b)))
  | alignedFrameReceived n m a b => exact effect_alignedFrameReceived n m a b s
  | frameWriteComplete n b => exact effect_of_change rfl (.of_changePort (.complete b))
  | slipBufferSlotWritten n b => exact effect_of_change rfl (.of_changePort (.writeSlot b))
  | allOnesPeriod n x => exact effect_of_change rfl (.of_changePort (.periodBits x.first x.bits))
  | sendCodeBurstEnd n => exact effect_of_change rfl (.of_changePort .endBurst)
  | sfrMark m => exact effect_sfrMark m s
  | oscillatorFrameStart => exact effect_oscillatorFrameStart s
  | markWindowClose => exact effect_of_guard rfl fun h => .of_change (.missWindow h.1)
  | goodMarkTimeout => exact effect_of_guard rfl fun h => .of_change (.markTimeout h)
  | supervisionIntervalExpiry turn =>
    exact effect_of_guard (g := s.interval.ready Config.intervalFrames turn = true) rfl
      fun _ => .of_change (.evaluate turn _)
  | waitToRestoreExpiry turn => exact effect_of_change rfl (.expireWaits turn)
  | slipPeriodEnd turn =>
    exact effect_of_guard (g := s.slipPeriod.ready Config.slipPeriodFrames turn = true) rfl
      fun _ => .of_change (.sweep _ (fun _ => .judgeSlips) _)
  | loopTimerExpiry turn =>
    exact effect_of_change rfl (.of_changePorts fun _ => .expireLoop turn)

/-- What a command makes of a state is its effect. -/
theorem effect_of_exec {c : Instr} {s t : State} (hc : c ≠ .rstAssert) (h : exec c s = .next t) :
    Effect c s t := by
  obtain ⟨u, hu, he⟩ := exec_effect hc s
  cases hu.symm.trans h
  exact he

end Sys2Proof.Proofs
end

section
/-! PROOFS. The two sides of the state: marks and changes leave the buses, the executor and the queue alone,
and bus moves leave everything else. -/

namespace Sys2Proof.Proofs

open Sys2Proof Sys2Proof.Machine

/-- The pins, the buses, the executor and the queue. -/
def outer (s : State) :=
  (s.rst, s.straps, s.portM, s.portS, s.lastOp, s.acks, s.executor, s.lastServed, s.pending)

/-- Ports, reference, counts, tables, list, enables and the queue. -/
def inner (s : State) :=
  (s.ports, s.ref, s.interval, s.slipPeriod, s.records, s.slotMap, s.selections, s.contexts, s.attention,
    s.enableM, s.enableS, s.pending)

/-- What no bus transaction reaches: the inner side, the RST pin, the straps, the executor and the turn. -/
def still (s : State) := (inner s, s.rst, s.straps, s.executor, s.lastServed)

theorem outer_eq_iff {s t : State} : outer t = outer s ↔
    t.rst = s.rst ∧ t.straps = s.straps ∧ t.portM = s.portM ∧ t.portS = s.portS ∧ t.lastOp = s.lastOp ∧
      t.acks = s.acks ∧ t.executor = s.executor ∧ t.lastServed = s.lastServed ∧ t.pending = s.pending := by
  simp only [outer, Prod.mk.injEq]

theorem inner_eq_iff {s t : State} : inner t = inner s ↔
    t.ports = s.ports ∧ t.ref = s.ref ∧ t.interval = s.interval ∧ t.slipPeriod = s.slipPeriod ∧
      t.records = s.records ∧ t.slotMap = s.slotMap ∧ t.selections = s.selections ∧
      t.contexts = s.contexts ∧ t.attention = s.attention ∧ t.enableM = s.enableM ∧
      t.enableS = s.enableS ∧ t.pending = s.pending := by
  simp only [inner, Prod.mk.injEq]

theorem inner_of_still {s t : State} (h : still t = still s) : inner t = inner s := congrArg Prod.fst h

theorem still_eq_iff {s t : State} : still t = still s ↔
    inner t = inner s ∧ t.rst = s.rst ∧ t.straps = s.straps ∧ t.executor = s.executor ∧
      t.lastServed = s.lastServed := by
  simp only [still, Prod.mk.injEq]

/-! ### The shared updates leave the outer side -/

@[simp] theorem outer_post (s : State) (x : Subject) (c : Change) : outer (s.post x c) = outer s := rfl

@[simp] theorem outer_postIf (s : State) (b : Bool) (x : Subject) (c : Change) :
    outer (s.postIf b x c) = outer s := by simp [outer]

@[simp] theorem outer_setRecord (s : State) (id : Nat) (r : Record) :
    outer (s.setRecord id r) = outer s := rfl

@[simp] theorem outer_reserve (s : State) (ts : List Triple) (id : Nat) :
    outer (s.reserve ts id) = outer s := rfl

@[simp] theorem outer_unbind (s : State) (k : Option Nat) : outer (s.unbind k) = outer s := by simp [outer]

@[simp] theorem outer_freeRecord (s : State) (id : Nat) (r : Record) :
    outer (s.freeRecord id r) = outer s := by simp [outer]

@[simp] theorem outer_commitContext (s : State) (id k : Nat) (a b : Context) :
    outer (s.commitContext id k a b) = outer s := by simp [outer]

@[simp] theorem outer_changePort (s : State) (n : PortNo) (q : Port) :
    outer (s.changePort n q) = outer s := by simp [outer]

@[simp] theorem outer_changeCounted (s : State) (n : PortNo) (x : Port × Bool) :
    outer (s.changeCounted n x) = outer s := by
  rw [State.changeCounted, outer_postIf, outer_changePort]

@[simp] theorem outer_changePorts (s : State) (f : Port → Port) : outer (s.changePorts f) = outer s :=
  foldl_keeps (fun s n => outer_changePort s n _) _ s

theorem outer_withPorts (s : State) (v : Vector Port 16) : outer { s with ports := v } = outer s := rfl

theorem outer_withInterval (s : State) (p : Period) : outer { s with interval := p } = outer s := rfl

theorem outer_withSlipPeriod (s : State) (p : Period) : outer { s with slipPeriod := p } = outer s := rfl

/-! ### A system frame start, the marks and the evaluation do too -/

@[simp] theorem outer_recompute (s : State) (id : Nat) : outer (s.recompute id) = outer s := by
  unfold State.recompute
  split
  case h_1 => rfl
  case h_2 r _ =>
    split
    · exact outer_freeRecord s id r
    · rw [State.installAtFrame, outer_postIf]
      rfl

@[simp] theorem outer_applyPending (s : State) : outer s.applyPending = outer s :=
  foldl_keeps outer_recompute _ s

@[simp] theorem outer_frameStart (s : State) : outer s.frameStart = outer s := by
  have htick : ∀ u : State, outer u.tickCounts = outer u := fun _ => rfl
  simp only [State.frameStart, outer_withPorts, htick, outer_applyPending]

@[simp] theorem outer_startAt (s : State) (moment : Nat) (r : RefMonitor) :
    outer (s.startAt moment r) = outer s := by
  rw [State.startAt, outer_frameStart]
  rfl

@[simp] theorem outer_reacquireAt (s : State) (moment : Nat) :
    outer (s.reacquireAt moment) = outer s := by
  rw [State.reacquireAt, outer_withPorts, outer_startAt]

@[simp] theorem outer_mark (s : State) (moment : Nat) : outer (s.mark moment) = outer s := by
  unfold State.mark State.markOk State.markFree
  repeat' split
  all_goals simp only [outer_startAt, outer_reacquireAt]
  all_goals rfl

theorem outer_markStep {s t : State} (h : MarkStep s t) : outer t = outer s := by
  cases h with
  | mark m => exact outer_mark s m
  | oscillator => exact outer_startAt s _ _

/-- What no mark and no start changes, however many there are. -/
theorem keeps_of_marks {α : Type} {g : State → α} (hg : ∀ s t, MarkStep s t → g t = g s) {s t : State}
    (h : Relation.ReflTransGen MarkStep s t) : g t = g s := by
  induction h with
  | refl => rfl
  | tail _ hstep ih => exact (hg _ _ hstep).trans ih

@[simp] theorem outer_evaluateRecord (turn : Turn) (s : State) (id : Nat) :
    outer (s.evaluateRecord turn id) = outer s := by
  have hfails : ∀ (u : State) (r r' : Record), outer (u.handFails turn id r r') = outer u := by
    intro u r r'
    unfold State.handFails
    split
    · exact outer_commitContext ..
    · rfl
  unfold State.evaluateRecord
  split
  case h_1 => rfl
  case h_2 r _ =>
    split
    · rw [hfails, outer_postIf, outer_setRecord]
    · rfl

@[simp] theorem outer_evaluate (s : State) (turn : Turn) : outer (s.evaluate turn) = outer s :=
  foldl_keeps (outer_evaluateRecord turn) _ s

@[simp] theorem outer_expireWait (turn : Turn) (s : State) (id : Nat) :
    outer (s.expireWait turn id) = outer s := by
  unfold State.expireWait
  repeat' split
  all_goals simp only [outer_commitContext]

/-! ### Record requests -/

theorem RecordAct.keeps_outer {act : Nat → Record → State → Answer × State} (h : RecordAct act)
    (id : Nat) (r : Record) (s : State) : outer (act id r s).2 = outer s := by
  cases h with
  | modify q =>
    unfold modifyRecord modifyAdd modifyRemove
    repeat' split
    all_goals rfl
  | retire => unfold retireRecord; split <;> simp [wrongState]
  | hold => unfold holdRecord; split <;> rfl
  | release => unfold releaseRecord; split <;> rfl
  | protect q =>
    unfold protectRecord
    repeat' split
    all_goals rfl
  | unprotect =>
    unfold unprotectRecord
    repeat' split
    all_goals rfl
  | switch command =>
    unfold switchRecord
    repeat' split
    all_goals simp [wrongState]

/-! ### Changes -/

/-- DEVICE_RESET apart, no change reaches the outer side. -/
theorem Alters.keeps_outer_or_reset {c : Instr} {s t : State} (h : Alters c s t) :
    outer t = outer s ∨ c = .deviceReset ∧ t = (doDeviceReset s).2 := by
  cases h with
  | none | missWindow | markTimeout | choose | enables | fetch | install => exact .inl rfl
  | port n q code => exact .inl (outer_changeCounted s n _)
  | sweep f => exact .inl ((outer_withSlipPeriod ..).trans (outer_changePorts s f))
  | evaluate turn => exact .inl ((outer_withInterval ..).trans (outer_evaluate s turn))
  | expireWaits turn => exact .inl (foldl_keeps (outer_expireWait turn) _ s)
  | record act hact id r => exact .inl (hact.keeps_outer id r s)
  | deviceReset hc => exact .inr ⟨hc, rfl⟩

theorem Alters.keeps_outer {c : Instr} {s t : State} (h : Alters c s t) (hc : c ≠ .deviceReset) :
    outer t = outer s := by
  obtain h | ⟨h, -⟩ := h.keeps_outer_or_reset
  · exact h
  · exact absurd h hc

/-! ### Bus moves leave the inner side, and transactions the executor and the pins too -/

@[simp] theorem still_setMport (s : State) (p : MPortId) (x : MPort) :
    still (s.setMport p x) = still s := by cases p <;> rfl

@[simp] theorem still_statusCopies (s : State) (p : MPortId) (count : Nat) :
    still (s.statusCopies p count) = still s := still_setMport ..

@[simp] theorem still_writeOut (s : State) (p : MPortId) (had more : Nat) :
    still (s.writeOut p had more) = still s := by
  cases p with
  | m => exact still_statusCopies ..
  | s => rfl

@[simp] theorem still_writeOn (s : State) (p : MPortId) (bits : List Bool) :
    still (s.writeOn p bits) = still s := by
  cases p with
  | m => exact (still_writeOut ..).trans (still_setMport ..)
  | s => rfl

@[simp] theorem still_writeOnMore (s : State) (p : MPortId) (bits : List Bool) :
    still (s.writeOnMore p bits) = still s := by
  unfold State.writeOnMore
  split
  case h_1 => rw [still_writeOut, still_setMport]
  all_goals rfl

theorem still_addressed {act : State → State} (hact : ∀ s, still (act s) = still s) (s : State)
    (address : BitVec 7) : still (s.addressed address act) = still s := by
  unfold State.addressed
  split
  · exact hact _
  · split <;> rfl

@[simp] theorem still_writePart (s : State) (via : Via) (part : BusPart (List Bool)) :
    still (s.writePart via part) = still s := by
  unfold State.writePart
  split
  case h_1 bits => split <;> simp only [still_writeOn]
  case h_2 bits => exact still_writeOnMore ..
  case h_3 a bits => exact still_addressed (fun s => still_writeOn s .s bits) s a
  case h_4 a bits => split <;> simp only [still_writeOnMore]

@[simp] theorem still_readPart (s : State) (p : MPortId) (part : BusPart Nat) :
    still (s.readPart p part) = still s := by
  unfold State.readPart
  split
  case h_1 => split <;> simp only [still_setMport]
  case h_2 => exact still_setMport ..

@[simp] theorem still_statusBits (s : State) (p : MPortId) (clears : Bool) (had more : Nat) :
    still (s.statusBits p clears had more) = still s := by
  have hread : ∀ (u : State) (k : Nat), still (u.statusRead p k) = still u := by
    intro u k
    cases k with
    | zero => rfl
    | succ k => rw [State.statusRead, still_statusCopies, still_setMport, still_statusCopies]
  simp only [State.statusBits]
  split
  · rw [hread, still_setMport]
  · rw [still_statusCopies, still_setMport]

@[simp] theorem still_statusPart (s : State) (p : MPortId) (clears : Bool) (part : BusPart Nat) :
    still (s.statusPart p clears part) = still s := by
  unfold State.statusPart
  split
  case h_1 => split <;> simp only [still_statusBits, still_setMport]
  case h_2 => split <;> simp only [still_statusBits]

@[simp] theorem still_readS (s : State) (part : BusPart Nat) : still (s.readS part) = still s := by
  unfold State.readS
  split <;> simp only [still_readPart, still_statusPart]

@[simp] theorem still_i2cRead (s : State) (address : BitVec 7) (part : BusPart Nat) :
    still (s.i2cRead address part) = still s := by
  unfold State.i2cRead
  split
  case h_1 => exact still_addressed (fun s => still_readS s _) s address
  case h_2 => split <;> simp only [still_readS]

@[simp] theorem still_i2cWrite (s : State) (data : List Byte) : still (s.i2cWrite data) = still s := by
  unfold State.i2cWrite
  split
  case h_1 => rfl
  case h_2 => split
              · exact still_writeOn ..
              · rfl

/-- A bus move is a transaction, or a step of the executor or the RST pin that says what it changes. -/
theorem BusMove.keeps_still {s t : State} (h : BusMove s t) :
    still t = still s ∨ (∃ p, s.executor = none ∧ s.nextPort = some p ∧ t = s.handOn p) ∨
      (∃ x a, s.executor = some x ∧ x.answer = some a ∧ t = s.place x a) ∨
      ∃ r, s.rst = true ∧ t = s.released r := by
  cases h with
  | write via part => exact .inl (still_writePart ..)
  | endWrite p => exact .inl (still_setMport ..)
  | read p part => exact .inl (still_readPart ..)
  | endRead p => exact .inl (still_setMport ..)
  | status p clears part => exact .inl (still_statusPart ..)
  | i2cRead a part => exact .inl (still_i2cRead ..)
  | i2cWrite a data => exact .inl (still_addressed (fun s => still_i2cWrite s data) s a)
  | handOn p hx hp => exact .inr (.inl ⟨p, hx, hp, rfl⟩)
  | place x a hx ha => exact .inr (.inr (.inl ⟨x, a, hx, ha, rfl⟩))
  | release r hr => exact .inr (.inr (.inr ⟨r, hr, rfl⟩))

theorem BusMove.keeps_inner {s t : State} (h : BusMove s t) : inner t = inner s := by
  obtain h | ⟨p, -, -, rfl⟩ | ⟨x, a, -, -, rfl⟩ | ⟨r, -, rfl⟩ := h.keeps_still
  · exact inner_of_still h
  · have hset := inner_of_still (still_setMport s p { s.mport p with txn := .executing, request := [] })
    exact hset
  · have hset := inner_of_still (still_setMport s x.port
      { s.mport x.port with txn := .answered, response := responseFrame x.code x.tag a })
    exact hset
  · rfl

theorem Finish.keeps_inner {c : Instr} {s t : State} (h : Finish c s t) : inner t = inner s := by
  cases h with
  | none => rfl
  | answer x a => rfl
  | bus _ h => exact h.keeps_inner

/-! ### Every command leaves the queue -/

theorem pending_of_outer {s t : State} (h : outer t = outer s) : t.pending = s.pending := by
  obtain ⟨-, -, -, -, -, -, -, -, h⟩ := outer_eq_iff.mp h
  exact h

theorem pending_of_inner {s t : State} (h : inner t = inner s) : t.pending = s.pending := by
  obtain ⟨-, -, -, -, -, -, -, -, -, -, -, h⟩ := inner_eq_iff.mp h
  exact h

theorem pending_releaseInward (before s : State) (n : PortNo) :
    (before.releaseInward s n).pending = s.pending := by
  unfold State.releaseInward
  split
  · exact pending_changePort s n _
  · rfl

theorem pending_doDeviceReset (s : State) : (doDeviceReset s).2.pending = s.pending := by
  have h := foldl_keeps (g := State.pending) (pending_releaseInward s) (List.finRange 16) s.emptied
  unfold doDeviceReset
  split
  · exact (pending_setMport ..).trans h
  · exact h

theorem Alters.keeps_pending {c : Instr} {s t : State} (h : Alters c s t) : t.pending = s.pending := by
  obtain h | ⟨-, rfl⟩ := h.keeps_outer_or_reset
  · exact pending_of_outer h
  · exact pending_doDeviceReset s

theorem Effect.keeps_pending {c : Instr} {s t : State} (h : Effect c s t) : t.pending = s.pending := by
  obtain ⟨u, v, hmarks, hchange, hfinish⟩ := h
  have hu : u.pending = s.pending := by
    obtain ⟨-, h⟩ | rfl := hmarks
    · exact pending_of_outer (keeps_of_marks (fun _ _ => outer_markStep) h)
    · rfl
  rw [pending_of_inner hfinish.keeps_inner, hchange.keeps_pending, hu]

/-- Settles O2: by the command's effect, and RST_ASSERT by its own state. -/
theorem everyCommandTakesANextState : Obligations.EveryCommandTakesANextState := by
  intro c s
  by_cases hc : c = .rstAssert
  · subst hc
    exact ⟨s.powerOn, rfl, rfl⟩
  · obtain ⟨t, ht, he⟩ := exec_effect hc s
    exact ⟨t, ht, he.keeps_pending⟩

end Sys2Proof.Proofs
end

section
/-! PROOFS. The queue's front command (O1), commands out of place (O3), refused requests (O4), and the
installed selections outside system frame starts (O25). -/

namespace Sys2Proof.Proofs

open Sys2Proof Sys2Proof.Machine

theorem executor_of_outer {s t : State} (h : outer t = outer s) : t.executor = s.executor := by
  obtain ⟨-, -, -, -, -, -, h, -⟩ := outer_eq_iff.mp h
  exact h

theorem selections_of_inner {s t : State} (h : inner t = inner s) : t.selections = s.selections := by
  obtain ⟨-, -, -, -, -, -, h, -⟩ := inner_eq_iff.mp h
  exact h

/-! ### A step -/

/-- A step is the front command on the rest of the queue. -/
theorem step_cons {c : Instr} {rest : List Instr} {s : State} (h : s.pending = c :: rest) :
    step s = exec c { s with pending := rest } := by
  simp only [step, h]

theorem step_nil {s : State} (h : s.pending = []) : step s = .next s := by
  simp only [step, h]

/-- Settles O1: the two forms of the queue. -/
theorem stepRunsFrontCommand : Obligations.StepRunsFrontCommand :=
  ⟨fun _ _ _ => step_cons, fun _ => step_nil⟩

/-- A property that does not speak of the queue is kept by every step where every command keeps it. -/
theorem stepKeeps_of_exec {P : State → Prop} (hqueue : ∀ s q, P s → P { s with pending := q })
    (hexec : ∀ c s t, P s → exec c s = .next t → P t) : StepKeeps P := by
  intro s t hs hstep
  cases hp : s.pending with
  | nil =>
    rw [step_nil hp] at hstep
    cases hstep
    exact hs
  | cons c rest =>
    rw [step_cons hp] at hstep
    exact hexec c _ t (hqueue s rest hs) hstep

/-- The same by effects: every command but RST_ASSERT, and the power-on state. -/
theorem stepKeeps_of_effect {P : State → Prop} (hqueue : ∀ s q, P s → P { s with pending := q })
    (heffect : ∀ c s t, P s → Effect c s t → P t) (hpower : ∀ s, P s → P s.powerOn) : StepKeeps P := by
  refine stepKeeps_of_exec hqueue fun c s t hs h => ?_
  by_cases hc : c = .rstAssert
  · subst hc
    cases h
    exact hpower s hs
  · exact heffect c s t hs (effect_of_exec hc h)

/-! ### Commands out of place -/

theorem changeCounted_self (s : State) (n : PortNo) : s.changeCounted n (s.ports[n], false) = s :=
  changePort_self s n

/-- The request commands are carried out by the executor alone: those that no request in hand names
change nothing. -/
theorem request_not_handed {c : Instr} {s : State} (henc : (encodeParams c).isSome = true)
    (hx : ∀ x, ¬ s.handed c x) : exec c s = .next s := by
  cases c
  -- a command that is no request has no frame
  case writeRequest | writeTransactionEnd | readResponse | readResponseEnd | readStatus | i2cRead |
    handOver | responsePlaced | rstAssert | rstRelease | losAsserted | losDeasserted | candidateFound |
    verifyCheck | alignedFrameReceived | frameWriteComplete | allOnesPeriod | sfrMark |
    oscillatorFrameStart | markWindowClose | goodMarkTimeout | supervisionIntervalExpiry |
    waitToRestoreExpiry | slipPeriodEnd | loopTimerExpiry | sendCodeBurstEnd | slipBufferSlotWritten |
    lastOperationSet => cases henc
  all_goals exact carryOut_not_handed hx

/-- A check outside VERIFY. -/
theorem verify_outside {p : Port} (h : p.framer.state ≠ .verify) (bits : List Bool) :
    p.verify bits = (p, false) := if_neg h

theorem exec_verifyCheck (n : PortNo) (a b : List Bool) (s : State) :
    exec (.verifyCheck n a b) s = .next (s.changeCounted n (s.ports[n].verify (a ++ b))) := rfl

theorem exec_alignedFrameReceived (n : PortNo) (m : Nat) (a b : List Bool) (s : State) :
    exec (.alignedFrameReceived n m a b) s = .next ((s.frameMark n m (a ++ b)).changeCounted n
      (((s.frameMark n m (a ++ b)).ports[n].locate (s.frameMark n m (a ++ b)).ref.lastStart m
        (a ++ b)).receive (a ++ b))) := rfl

theorem begins_not_aligned {p : Port} (h : p.aligned = false) (bits : List Bool) :
    p.begins bits = false := by simp [Port.begins, h]

/-- A frame outside ALIGNED is no frame: it makes no mark and is not received. -/
theorem exec_frame_outside {n : PortNo} {s : State} (h : s.ports[n].aligned = false) (m : Nat)
    (a b : List Bool) : exec (.alignedFrameReceived n m a b) s = .next s := by
  have hbegins : s.ports[n].begins (a ++ b) ≠ true := by rw [begins_not_aligned h]; exact Bool.false_ne_true
  have hmark : s.frameMark n m (a ++ b) = s := if_neg fun hb => hbegins hb.1
  have hlocate : s.ports[n].locate s.ref.lastStart m (a ++ b) = s.ports[n] := if_neg fun hb => hbegins hb.1
  have hreceive : s.ports[n].receive (a ++ b) = (s.ports[n], false) := if_neg (by rw [h]; exact Bool.false_ne_true)
  rw [exec_alignedFrameReceived, hmark, hlocate, hreceive, changeCounted_self]

/-- Settles O3: requests not in hand, checks outside VERIFY, frames outside ALIGNED, edges that are no mark
and expiries that are not there. -/
theorem commandOutOfPlaceChangesNothing : Obligations.CommandOutOfPlaceChangesNothing := by
  intro s
  refine ⟨fun c => request_not_handed, ?_, ?_, ?_, ?_, ?_⟩
  · intro n a b h
    rw [exec_verifyCheck, verify_outside h, changeCounted_self]
  · intro n m a b h
    exact exec_frame_outside h m a b
  · intro m h
    have hno : ¬ (s.rst = false ∧ s.ref.selection = .external) := by
      rintro ⟨hr, hsel⟩
      rcases h with h | h
      · simp [hr] at h
      · exact h hsel
    exact if_neg hno
  · intro turn h
    exact if_neg (by simp [h])
  · intro turn h
    exact if_neg (by simp [h])

/-! ### Refused requests -/

@[simp] theorem status_ok (data : List Byte) : (Answer.ok data).status = .ok := rfl

@[simp] theorem status_recordOk (id : Nat) (state revision : Byte) :
    (Answer.recordOk id state revision).status = .ok := rfl

@[simp] theorem wrongState_snd (r : Record) (s : State) : (wrongState r s).2 = s := rfl

/-- The answer is OK, or the state is the one before. -/
def RefusalKeeps (s : State) (r : Answer × State) : Prop := r.1.status = .ok ∨ r.2 = s

theorem RefusalKeeps.refused (s : State) (a : Answer) : RefusalKeeps s (a, s) := .inr rfl

theorem RefusalKeeps.ok (s t : State) (data : List Byte) : RefusalKeeps s (.ok data, t) := .inl rfl

theorem refusalKeeps_onRecord {id : Half} {act : Nat → Record → State → Answer × State} {s : State}
    (hact : ∀ k r, RefusalKeeps s (act k r s)) : RefusalKeeps s (onRecord id act s) := by
  unfold onRecord
  split
  · exact .refused s _
  · split
    · exact .refused s _
    · exact hact _ _

theorem refusalKeeps_onRevision {id : Half} {expected : Byte}
    {act : Nat → Record → State → Answer × State} {s : State} (hact : ∀ k r, RefusalKeeps s (act k r s)) :
    RefusalKeeps s (onRevision id expected act s) := by
  refine refusalKeeps_onRecord fun k r => ?_
  split
  · exact hact k r
  · exact .refused s _

theorem refusalKeeps_onPort {port : Byte} {act : PortNo → State → Answer × State} {s : State}
    (hact : ∀ n, RefusalKeeps s (act n s)) : RefusalKeeps s (onPort port act s) := by
  unfold onPort
  split
  · exact hact _
  · exact .refused s _

/-- Every branch of a record request is OK, or refuses and keeps the state. -/
theorem RecordAct.refusalKeeps {act : Nat → Record → State → Answer × State} (h : RecordAct act)
    (id : Nat) (r : Record) (s : State) : RefusalKeeps s (act id r s) := by
  cases h with
  | modify q =>
    unfold modifyRecord modifyAdd modifyRemove
    repeat' split
    all_goals simp [RefusalKeeps]
  | retire => unfold retireRecord; split <;> simp [RefusalKeeps]
  | hold => unfold holdRecord; split <;> simp [RefusalKeeps]
  | release => unfold releaseRecord; split <;> simp [RefusalKeeps]
  | protect q =>
    unfold protectRecord
    repeat' split
    all_goals simp [RefusalKeeps]
  | unprotect =>
    unfold unprotectRecord
    repeat' split
    all_goals simp [RefusalKeeps]
  | switch command =>
    unfold switchRecord
    repeat' split
    all_goals simp [RefusalKeeps]

theorem refusalKeeps_doConnect (q : ConnectReq) (s : State) : RefusalKeeps s (doConnect q s) := by
  unfold doConnect
  repeat' split
  all_goals simp [RefusalKeeps]

theorem refusalKeeps_doFind (port slot direction : Byte) (s : State) :
    RefusalKeeps s (doFind port slot direction s) := by
  unfold doFind
  repeat' split
  all_goals simp [RefusalKeeps]

theorem refusalKeeps_doNext (start : Half) (s : State) : RefusalKeeps s (doNext start s) := by
  unfold doNext
  repeat' split
  all_goals simp [RefusalKeeps]

theorem refusalKeeps_doPortSet (q : PortSetReq) (s : State) : RefusalKeeps s (doPortSet q s) := by
  refine refusalKeeps_onPort fun n => ?_
  split
  · exact .ok s _ _
  · exact .refused s _

theorem refusalKeeps_doPortLoop (port command : Byte) (s : State) :
    RefusalKeeps s (doPortLoop port command s) := by
  refine refusalKeeps_onPort fun n => ?_
  repeat' split
  all_goals simp [RefusalKeeps]

theorem refusalKeeps_doPortSendCode (port code : Byte) (count : Half) (s : State) :
    RefusalKeeps s (doPortSendCode port code count s) := by
  refine refusalKeeps_onPort fun n => ?_
  repeat' split
  all_goals simp [RefusalKeeps]

theorem refusalKeeps_doRefSelect (selection port : Byte) (s : State) :
    RefusalKeeps s (doRefSelect selection port s) := by
  unfold doRefSelect
  split <;> simp [RefusalKeeps]

theorem refusalKeeps_doAttention (s : State) : RefusalKeeps s (doAttention s) := by
  unfold doAttention
  split <;> simp [RefusalKeeps]

theorem refusalKeeps_doAttnEnable (m e : Option Byte) (s : State) : RefusalKeeps s (doAttnEnable m e s) := by
  unfold doAttnEnable
  repeat' split
  all_goals simp [RefusalKeeps]

theorem refusalKeeps_doDeviceReset (s : State) : RefusalKeeps s (doDeviceReset s) := by
  unfold doDeviceReset
  split <;> simp [RefusalKeeps]

/-- What the executor makes of a command in hand. -/
theorem request_answers {c : Instr} {s : State} {x : Execution} (hx : s.handed c x) :
    (encodeParams c).isSome = true →
    ∃ r : Answer × State, exec c s = .next (r.2.answering x r.1) ∧ RefusalKeeps s r := by
  have carried {act : State → Answer × State} (hact : RefusalKeeps s (act s)) :
      ∃ r : Answer × State, carryOut c act s = .next (r.2.answering x r.1) ∧ RefusalKeeps s r :=
    ⟨_, carryOut_handed hx, hact⟩
  intro henc
  cases c with
  | connect q => exact carried (refusalKeeps_doConnect q s)
  | modify q => exact carried (refusalKeeps_onRevision fun k r => (RecordAct.modify q).refusalKeeps k r s)
  | retire id e => exact carried (refusalKeeps_onRevision fun k r => RecordAct.retire.refusalKeeps k r s)
  | hold id e => exact carried (refusalKeeps_onRevision fun k r => RecordAct.hold.refusalKeeps k r s)
  | release id e => exact carried (refusalKeeps_onRevision fun k r => RecordAct.release.refusalKeeps k r s)
  | query id => exact carried (refusalKeeps_onRecord fun k r => .ok s s _)
  | find p k d => exact carried (refusalKeeps_doFind p k d s)
  | nextRecord k => exact carried (refusalKeeps_doNext k s)
  | protect q => exact carried (refusalKeeps_onRevision fun k r => (RecordAct.protect q).refusalKeeps k r s)
  | unprotect id e =>
    exact carried (refusalKeeps_onRevision fun k r => RecordAct.unprotect.refusalKeeps k r s)
  | switch id e k =>
    exact carried (refusalKeeps_onRevision fun j r => (RecordAct.switch k).refusalKeeps j r s)
  | portSet q => exact carried (refusalKeeps_doPortSet q s)
  | portQuery p => exact carried (refusalKeeps_onPort fun n => .ok s s _)
  | portClearCounts p => exact carried (refusalKeeps_onPort fun n => .ok s _ _)
  | portLoop p k => exact carried (refusalKeeps_doPortLoop p k s)
  | portSendCode p k count => exact carried (refusalKeeps_doPortSendCode p k count s)
  | refSelect y p => exact carried (refusalKeeps_doRefSelect y p s)
  | attention => exact carried (refusalKeeps_doAttention s)
  | attnEnable m e => exact carried (refusalKeeps_doAttnEnable m e s)
  | deviceQuery => exact carried (.ok s s _)
  | deviceReset => exact carried (refusalKeeps_doDeviceReset s)
  | _ => cases henc

/-- No other command gives an answer: the executor's request has the one it had, or is gone. -/
theorem noRequest_noAnswer {c : Instr} {s t : State} {x : Execution} (hx : s.handed c x)
    (hreset : c ≠ .deviceReset) (henc : (encodeParams c).isSome ≠ true) (ht : exec c s = .next t)
    (a : Answer) : t.executor ≠ some { x with answer := some a } := by
  obtain ⟨hexec, -, hnone⟩ := hx
  have hstays : ∀ u : State, u.executor = s.executor → u.executor ≠ some { x with answer := some a } := by
    intro u hu h
    have hxa : x = { x with answer := some a } := Option.some.inj (hexec.symm.trans (hu.symm.trans h))
    rw [hxa] at hnone
    cases hnone
  by_cases hc : c = .rstAssert
  · subst hc
    cases ht
    rintro ⟨⟩
  · obtain ⟨u, v, hmarks, hchange, hfinish⟩ := effect_of_exec hc ht
    have hu : u.executor = s.executor := by
      obtain ⟨-, h⟩ | rfl := hmarks
      · exact executor_of_outer (keeps_of_marks (fun _ _ => outer_markStep) h)
      · rfl
    have hv : v.executor = s.executor := (executor_of_outer (hchange.keeps_outer hreset)).trans hu
    cases hfinish with
    | none => exact hstays _ hv
    | answer hc => exact absurd hc henc
    | bus _ h =>
      obtain h | ⟨p, hp, -⟩ | ⟨y, b, -, -, rfl⟩ | ⟨r, -, rfl⟩ := h.keeps_still
      · obtain ⟨-, -, -, hx, -⟩ := still_eq_iff.mp h
        exact hstays _ (hx.trans hv)
      · rw [hv, hexec] at hp
        cases hp
      · rintro ⟨⟩
      · exact hstays _ hv

/-- Settles O4: a request in hand is answered from a branch that keeps the state, and no other command
answers. -/
theorem refusedRequestChangesNothing : Obligations.RefusedRequestChangesNothing := by
  intro c s t x a hx ht hanswer hbad
  by_cases henc : (encodeParams c).isSome = true
  · obtain ⟨⟨b, u⟩, hu, hkeeps⟩ := request_answers hx henc
    cases hu.symm.trans ht
    obtain rfl : b = a := by
      rw [executor_answering] at hanswer
      exact Option.some.inj (congrArg Execution.answer (Option.some.inj hanswer))
    rw [hkeeps.resolve_left hbad]
  · have hreset : c ≠ .deviceReset := by rintro rfl; exact henc rfl
    exact absurd hanswer (noRequest_noAnswer hx hreset henc ht a)

/-! ### Installed selections -/

theorem selections_changePorts (s : State) (f : Port → Port) :
    (s.changePorts f).selections = s.selections :=
  foldl_keeps (fun s n => selections_changePort s n _) _ s

theorem selections_withSlipPeriod (s : State) (p : Period) :
    ({ s with slipPeriod := p } : State).selections = s.selections := rfl

theorem selections_withInterval (s : State) (p : Period) :
    ({ s with interval := p } : State).selections = s.selections := rfl

theorem selections_evaluateRecord (turn : Turn) (s : State) (id : Nat) :
    (s.evaluateRecord turn id).selections = s.selections := by
  have hfails : ∀ (u : State) (r r' : Record), (u.handFails turn id r r').selections = u.selections := by
    intro u r r'
    unfold State.handFails
    split <;> simp
  unfold State.evaluateRecord
  repeat' split
  all_goals simp only [hfails, selections_postIf, selections_setRecord]

theorem selections_expireWait (turn : Turn) (s : State) (id : Nat) :
    (s.expireWait turn id).selections = s.selections := by
  unfold State.expireWait
  repeat' split
  all_goals simp

/-- Record requests leave the selections to the next system frame start. -/
theorem RecordAct.keeps_selections {act : Nat → Record → State → Answer × State} (h : RecordAct act)
    (id : Nat) (r : Record) (s : State) : (act id r s).2.selections = s.selections := by
  cases h with
  | modify q =>
    unfold modifyRecord modifyAdd modifyRemove
    repeat' split
    all_goals rfl
  | retire => unfold retireRecord; split <;> simp
  | hold => unfold holdRecord; split <;> rfl
  | release => unfold releaseRecord; split <;> rfl
  | protect q =>
    unfold protectRecord
    repeat' split
    all_goals rfl
  | unprotect =>
    unfold unprotectRecord
    repeat' split
    all_goals rfl
  | switch command =>
    unfold switchRecord
    repeat' split
    all_goals simp

theorem Alters.keeps_selections {c : Instr} {s t : State} (h : Alters c s t) (hc : c ≠ .deviceReset) :
    t.selections = s.selections := by
  cases h with
  | none | missWindow | markTimeout | choose | enables | fetch | install => rfl
  | port n q code => exact (selections_postIf ..).trans (selections_changePort s n q)
  | sweep f => exact (selections_withSlipPeriod ..).trans (selections_changePorts s f)
  | evaluate turn => exact (selections_withInterval ..).trans <| foldl_keeps (selections_evaluateRecord turn) _ s
  | expireWaits turn => exact foldl_keeps (selections_expireWait turn) _ s
  | record act hact id r => exact hact.keeps_selections id r s
  | deviceReset h => exact absurd h hc

/-- Settles O25: without a mark or a start, no part of an effect writes a selection. -/
theorem selectionsChangeAtFrameStartsAlone : Obligations.SelectionsChangeAtFrameStartsAlone := by
  intro c s t ht hmark hosc hreset hrst hframe
  obtain ⟨u, v, hmarks, hchange, hfinish⟩ := effect_of_exec hrst ht
  have hu : u = s := by
    obtain ⟨hstart, -⟩ | h := hmarks
    · obtain ⟨n, m, a, b, hc, hsel⟩ := hstart hmark hosc
      exact absurd hsel (hframe n m a b hc)
    · exact h
  subst hu
  rw [selections_of_inner hfinish.keeps_inner, hchange.keeps_selections hreset]

end Sys2Proof.Proofs
end

section
/-! PROOFS. What the framer's own changes do to a port: leaving ALIGNED or VERIFY for SEARCH, entering
ALIGNED, following LOS_n, and a counted symbol. -/

namespace Sys2Proof.Proofs

open Sys2Proof Sys2Proof.Machine

/-! ### The framer in SEARCH -/

theorem aligned_iff {p : Port} : p.aligned = true ↔ p.framer.state = .aligned := by simp [Port.aligned]

theorem aligned_false_iff {p : Port} : p.aligned = false ↔ p.framer.state ≠ .aligned := by
  simp [Port.aligned]

/-- Everything the return to SEARCH does: what it sets always, and what it sets on leaving ALIGNED (R11, R12,
R35, R149). -/
theorem toSearch_eq (p : Port) (next : Option Place) (recent : List Bool) :
    p.toSearch next recent = { p with
      framer := { p.framer with
        state := .search, verified := 0, next := next, recent := recent, overhead := [], erroredRun := 0,
        period := if p.aligned then ⟨next, 0, true⟩ else p.framer.period },
      defects := { p.defects with unframed := p.defects.unframed || (p.aligned && p.config.enable) },
      slip := if p.aligned then p.slip.stop else p.slip,
      maint := if p.aligned then p.maint.zeroRuns else p.maint } := by
  unfold Port.toSearch
  cases p.aligned <;> simp [OnesPeriod.start]

@[simp] theorem zeroRuns_loop (m : Maint) : m.zeroRuns.loop = m.loop := rfl

/-- The loop stands over a return to SEARCH. -/
theorem toSearch_loop (p : Port) (next : Option Place) (recent : List Bool) :
    (p.toSearch next recent).maint.loop = p.maint.loop := by
  rw [toSearch_eq]
  dsimp only
  split <;> rfl

theorem toSearch_aligned (p : Port) (next : Option Place) (recent : List Bool) :
    (p.toSearch next recent).aligned = false := by
  rw [toSearch_eq]
  rfl

/-! ### SIG_LOST -/

theorem followLos_off {p : Port} (h : p.config.enable = false ∨ p.maint.loop = .inwardHost) :
    p.followLos = p := by
  unfold Port.followLos
  rw [if_neg]
  rintro ⟨he, hl⟩
  rcases h with h | h
  · simp [h] at he
  · exact hl h

theorem followLos_high {p : Port} (he : p.config.enable = true) (hl : p.maint.loop ≠ .inwardHost)
    (hlos : p.los = false) : p.followLos = { p with defects := { p.defects with sigLost := false } } := by
  simp [Port.followLos, he, hl, hlos]

theorem followLos_low {p : Port} (he : p.config.enable = true) (hl : p.maint.loop ≠ .inwardHost)
    (hlos : p.los = true) : p.followLos = p.loseSignal := by
  simp [Port.followLos, he, hl, hlos]

/-- A port through `followLos` is one of three: left alone, without SIG_LOST, or in forced SEARCH. -/
theorem followLos_cases (p : Port) :
    (p.followLos = p ∧ (p.config.enable = false ∨ p.maint.loop = .inwardHost)) ∨
      (p.config.enable = true ∧ p.maint.loop ≠ .inwardHost ∧
        (p.los = false ∧ p.followLos = { p with defects := { p.defects with sigLost := false } } ∨
          p.los = true ∧ p.followLos = p.loseSignal)) := by
  by_cases h : p.config.enable = false ∨ p.maint.loop = .inwardHost
  · exact .inl ⟨followLos_off h, h⟩
  · simp only [not_or, Bool.not_eq_false] at h
    obtain ⟨he, hl⟩ := h
    refine .inr ⟨he, hl, ?_⟩
    by_cases hlos : p.los = true
    · exact .inr ⟨hlos, followLos_low he hl hlos⟩
    · exact .inl ⟨eq_false_of_ne_true hlos, followLos_high he hl (eq_false_of_ne_true hlos)⟩

/-! ### Sane ports -/

/-- A port that is sane in each of its three parts. -/
structure Sane (p : Port) : Prop where
  line : p.LineInv
  slip : p.SlipInv
  maint : p.MaintInv

/-- The line's invariant speaks of these parts alone. -/
theorem lineInv_congr {p q : Port} (h : p.LineInv) (hc : q.config.enable = p.config.enable)
    (hf : q.framer = p.framer) (hd : q.defects = p.defects) (hl : q.los = p.los)
    (hm : q.maint.loop = p.maint.loop) : q.LineInv := by
  have ha : q.aligned = p.aligned := by rw [Port.aligned, hf, Port.aligned]
  have hforced : q.forced = p.forced := by rw [Port.forced, hd, Port.forced]
  obtain ⟨off, disabled, follows, inward, unframed, forced, noAis, ones, period, window, overhead, verified,
    errored, counter⟩ := h
  constructor <;> simp only [hc, hf, hd, hl, hm, ha, hforced]
  all_goals assumption

theorem slipInv_congr {p q : Port} (h : p.SlipInv) (hc : q.config.enable = p.config.enable)
    (ha : q.aligned = p.aligned) (hs : q.slip = p.slip) (hp : q.txPayload = p.txPayload)
    (hl : q.txLast = p.txLast) (hr : q.rxFirst = p.rxFirst) : q.SlipInv := by
  obtain ⟨waiting, writing, slot, whole, stopped, disabled, counts, sent, last, began⟩ := h
  constructor <;> simp only [hc, ha, hs, hp, hl, hr]
  all_goals assumption

theorem maintInv_congr {p q : Port} (h : p.MaintInv) (hc : q.config.enable = p.config.enable)
    (ha : q.aligned = p.aligned) (hm : q.maint = p.maint) : q.MaintInv := by
  obtain ⟨run, recognized, zeroed, absence, timer, mark, disabled, burst⟩ := h
  constructor <;> simp only [hc, ha, hm]
  all_goals assumption

theorem not_forced {p : Port} (h : p.LineInv) (hs : p.framer.state ≠ .search) : p.forced = false := by
  cases hf : p.forced with
  | false => rfl
  | true => exact absurd (h.forced hf) hs

theorem enabled_of_state {p : Port} (h : p.LineInv) (hs : p.framer.state ≠ .search) :
    p.config.enable = true := by
  have hoff := h.off
  have hforced := not_forced h hs
  simp only [Port.forced, Bool.or_eq_false_iff] at hforced
  rw [hforced.1] at hoff
  simpa using hoff.symm

theorem not_aligned_of_disabled {p : Port} (h : p.LineInv) (he : p.config.enable = false) :
    p.aligned = false := by
  rw [aligned_false_iff]
  intro ha
  rw [enabled_of_state h (by simp [ha])] at he
  cases he

/-! ### SIG_LOST followed on a sane port -/

section
variable {p q : Port} (h : p.LineInv) (hc : q.config.enable = p.config.enable) (hf : q.framer = p.framer)
  (hd : q.defects = p.defects)
include h hc hf hd

/-- Whatever has become of LOS_n and of the loop, raising SIG_LOST leaves the line sane where LOS_n is low. -/
theorem lineInv_loseSignal (he : q.config.enable = true) (hl : q.maint.loop ≠ .inwardHost)
    (hlos : q.los = true) : q.loseSignal.LineInv := by
  have hloop : q.loseSignal.maint.loop = q.maint.loop := toSearch_loop ..
  obtain ⟨off, disabled, -, -, unframed, forced, noAis, ones, period, window, overhead, verified, errored,
    counter⟩ := h
  unfold Port.loseSignal at hloop ⊢
  rw [toSearch_eq] at hloop ⊢
  constructor
  case period => dsimp only; split <;> simp_all
  all_goals simp_all [Port.forced, Port.aligned]

/-- So does following it, at either level. -/
theorem lineInv_followLos (hin : q.maint.loop = .inwardHost → q.defects.sigLost = false) :
    q.followLos.LineInv := by
  obtain ⟨heq, hno⟩ | ⟨he, hl, ⟨hlos, heq⟩ | ⟨hlos, heq⟩⟩ := followLos_cases q
  · rw [heq]
    obtain ⟨off, disabled, -, -, unframed, forced, noAis, ones, period, window, overhead, verified, errored,
      counter⟩ := h
    rcases hno with hno | hno
    all_goals constructor <;> simp_all [Port.forced, Port.aligned]
  · rw [heq]
    obtain ⟨off, disabled, -, -, unframed, forced, noAis, ones, period, window, overhead, verified, errored,
      counter⟩ := h
    constructor <;> simp_all [Port.forced, Port.aligned]
  · rw [heq]
    exact lineInv_loseSignal h hc hf hd he hl hlos

end

theorem slipInv_toSearch {p : Port} (h : p.SlipInv) (next : Option Place) (recent : List Bool) :
    (p.toSearch next recent).SlipInv := by
  rw [toSearch_eq]
  obtain ⟨waiting, writing, slot, whole, stopped, disabled, counts, sent, last, began⟩ := h
  constructor <;> cases ha : p.aligned <;> simp_all [SlipBuffer.stop]

theorem maintInv_toSearch {p : Port} (h : p.MaintInv) (next : Option Place) (recent : List Bool) :
    (p.toSearch next recent).MaintInv := by
  rw [toSearch_eq]
  obtain ⟨run, recognized, zeroed, absence, timer, mark, disabled, burst⟩ := h
  constructor <;> cases ha : p.aligned <;> simp_all [Maint.zeroRuns]

theorem slipInv_followLos {p : Port} (h : p.SlipInv) : p.followLos.SlipInv := by
  obtain ⟨heq, -⟩ | ⟨-, -, ⟨-, heq⟩ | ⟨-, heq⟩⟩ := followLos_cases p
  · rwa [heq]
  · rw [heq]
    exact slipInv_congr h rfl rfl rfl rfl rfl rfl
  · rw [heq]
    exact slipInv_toSearch (p := { p with defects := { p.defects with sigLost := true } })
      (slipInv_congr h rfl rfl rfl rfl rfl rfl) none []

theorem maintInv_followLos {p : Port} (h : p.MaintInv) : p.followLos.MaintInv := by
  obtain ⟨heq, -⟩ | ⟨-, -, ⟨-, heq⟩ | ⟨-, heq⟩⟩ := followLos_cases p
  · rwa [heq]
  · rw [heq]
    exact maintInv_congr h rfl rfl rfl
  · rw [heq]
    exact maintInv_toSearch (p := { p with defects := { p.defects with sigLost := true } })
      (maintInv_congr h rfl rfl rfl) none []

/-! ### The framer's events on a sane port -/

/-- LOS_n changes and SIG_LOST follows (R10). -/
theorem sane_los {p : Port} (h : Sane p) (level : Bool) : Sane ({ p with los := level }).followLos where
  line := lineInv_followLos h.line rfl rfl rfl h.line.inward
  slip := slipInv_followLos (slipInv_congr h.slip rfl rfl rfl rfl rfl rfl)
  maint := maintInv_followLos (maintInv_congr h.maint rfl rfl rfl)

/-- A framer that is not forced goes back to SEARCH with three bits at most (R4, R5). -/
theorem sane_toSearch {p : Port} (h : Sane p) (hf : p.forced = false) (next : Option Place)
    {recent : List Bool} (hr : recent.length ≤ 3) : Sane (p.toSearch next recent) where
  line := by
    have hloop := toSearch_loop p next recent
    obtain ⟨off, disabled, follows, inward, unframed, forced, noAis, ones, period, window, overhead, verified,
      errored, counter⟩ := h.line
    rw [toSearch_eq] at hloop ⊢
    constructor <;> cases ha : p.aligned <;> simp_all [Port.forced, Port.aligned]
  slip := slipInv_toSearch h.slip next recent
  maint := maintInv_toSearch h.maint next recent

theorem sane_candidate {p : Port} (h : Sane p) (first : Place) (bits : List Bool) :
    Sane (p.candidate first bits) := by
  unfold Port.candidate
  split
  case isFalse => exact h
  case isTrue hs =>
    obtain ⟨hstate, hforced⟩ := hs
    have ha : p.aligned = false := by simp [Port.aligned, hstate]
    obtain ⟨off, disabled, follows, inward, unframed, forced, noAis, ones, period, window, overhead, verified,
      errored, counter⟩ := h.line
    dsimp only
    split
    all_goals
      refine ⟨?_, slipInv_congr h.slip rfl ?_ rfl rfl rfl rfl, maintInv_congr h.maint rfl ?_ rfl⟩
      · constructor <;> simp_all [Port.forced, Port.aligned]
      · simp_all [Port.aligned]
      · simp_all [Port.aligned]

/-- The bits seen of an overhead byte are eight at most. -/
theorem length_seen {p : Port} (h : p.framer.overhead.length < 8) (bits : List Bool) :
    (p.seen bits).length ≤ 8 := by
  have hreceived : ∀ (place : Place) (l : List Bool), (p.received place l).length ≤ l.length := by
    intro place l
    unfold Port.received
    split
    · simp only [Port.ownBits, List.length_take]
      omega
    · exact le_rfl
  have hle := hreceived (p.framer.place + Fin.ofNat Config.frameBits p.framer.overhead.length)
    (bits.take (8 - p.framer.overhead.length))
  simp only [List.length_take] at hle
  simp only [Port.seen, List.length_append]
  omega

/-- Bits of an overhead byte in progress: fewer than four in VERIFY, than eight in ALIGNED. -/
theorem lineInv_overhead {p : Port} (h : p.LineInv) (hs : p.framer.state ≠ .search) {bits : List Bool}
    (hlt : bits.length < 8) (hv : p.framer.state = .verify → bits.length < 4) :
    ({ p with framer := { p.framer with overhead := bits } } : Port).LineInv := by
  have hforced := not_forced h hs
  obtain ⟨off, disabled, follows, inward, unframed, forced, noAis, ones, period, window, overhead, verified,
    errored, counter⟩ := h
  constructor <;> simp_all [Port.forced, Port.aligned]

theorem sane_overhead {p : Port} (h : Sane p) (hs : p.framer.state ≠ .search) {bits : List Bool}
    (hlt : bits.length < 8) (hv : p.framer.state = .verify → bits.length < 4) :
    Sane { p with framer := { p.framer with overhead := bits } } where
  line := lineInv_overhead h.line hs hlt hv
  slip := slipInv_congr h.slip rfl rfl rfl rfl rfl rfl
  maint := maintInv_congr h.maint rfl rfl rfl

/-! ### A counted symbol -/

/-- The run after one more symbol: carried on, or begun afresh (R146). -/
theorem countRun_eq (m : Maint) (y : Sym) : m.countRun y = { m with
    runSym := some y,
    runLength := if m.runSym = some y then satSucc Config.codeRun m.runLength else 1,
    recognized := m.recognized && decide (m.runSym = some y) } := by
  unfold Maint.countRun
  split
  case isTrue h => simp [h]
  case isFalse h => simp [h]

/-- The judgement of a symbol moves the far alarm and its absence alone (R148). -/
theorem judgeFar_eq (m : Maint) (y : Sym) :
    m.judgeFar y = { m with absence := (m.judgeFar y).absence, farAlarm := (m.judgeFar y).farAlarm } := by
  unfold Maint.judgeFar
  repeat' split
  all_goals rfl

/-- The absence stays below 16 frames, and is 0 without the far alarm. -/
theorem judgeFar_absence {m : Maint} (h : m.absence < 16 ∧ (m.farAlarm = false → m.absence = 0)) (y : Sym) :
    (m.judgeFar y).absence < 16 ∧ ((m.judgeFar y).farAlarm = false → (m.judgeFar y).absence = 0) := by
  unfold Maint.judgeFar
  repeat' split
  all_goals simp_all

/-- The symbol that a code's run is of. -/
def codeSym : Code → Sym
  | .loopUp => .loopUp
  | .loopDown => .loopDown

/-- A run is recognized as a code at 64 frames, once (R147). -/
theorem recognizes_eq_some {m : Maint} {c : Code} :
    m.recognizes = some c ↔ m.runLength = 64 ∧ m.recognized = false ∧ m.runSym = some (codeSym c) := by
  unfold Maint.recognizes
  split
  case isTrue h =>
    rcases hs : m.runSym with _ | y
    · simp
    · cases y <;> cases c <;> simp [codeSym, h.1, h.2]
  case isFalse h => simp; tauto

/-- The maintenance unit after one more symbol, a recognition apart. -/
def judged (m : Maint) (y : Sym) : Maint := (m.countRun y).judgeFar y

theorem judged_eq (m : Maint) (y : Sym) : judged m y = { m with
    runSym := some y,
    runLength := if m.runSym = some y then satSucc Config.codeRun m.runLength else 1,
    recognized := m.recognized && decide (m.runSym = some y),
    absence := (judged m y).absence, farAlarm := (judged m y).farAlarm } := by
  conv => lhs; rw [judged, judgeFar_eq, countRun_eq]
  rw [judged, countRun_eq]

theorem judged_absence {m : Maint} (h : m.absence < 16 ∧ (m.farAlarm = false → m.absence = 0)) (y : Sym) :
    (judged m y).absence < 16 ∧ ((judged m y).farAlarm = false → (judged m y).absence = 0) :=
  judgeFar_absence (by rw [countRun_eq]; exact h) y

/-- A symbol counted, by whether it completes a code's run. -/
theorem countSymbol_some {p : Port} {symbol : Nibble} {c : Code}
    (h : (judged p.maint (symOf symbol)).recognizes = some c) : p.countSymbol symbol =
      (({ p with maint := { judged p.maint (symOf symbol) with recognized := true, lastCode := some c } } :
        Port).actOnCode c, true) := by
  rw [judged] at h ⊢
  simp only [Port.countSymbol, h]

theorem countSymbol_none {p : Port} {symbol : Nibble}
    (h : (judged p.maint (symOf symbol)).recognizes = none) :
    p.countSymbol symbol = ({ p with maint := judged p.maint (symOf symbol) }, false) := by
  rw [judged] at h ⊢
  simp only [Port.countSymbol, h]

/-- An ALIGNED port keeps a sane maintenance unit with a judged one that is recognized where it should be. -/
theorem maintInv_judged {p : Port} (h : p.MaintInv) (ha : p.aligned = true) (he : p.config.enable = true)
    {y : Sym} {m : Maint} (hm : m = { judged p.maint y with recognized := m.recognized, lastCode := m.lastCode })
    (hrec : m.recognized = true ↔ (judged p.maint y).runLength = 64 ∧ (y = .loopUp ∨ y = .loopDown)) :
    ({ p with maint := m } : Port).MaintInv := by
  have habs := judged_absence h.absence y
  obtain ⟨run, recognized, -, -, timer, mark, -, burst⟩ := h
  have hrun : m.runSym = some y ∧ m.runLength ≤ 64 ∧ 0 < m.runLength := by
    rw [hm, judged_eq]
    refine ⟨rfl, ?_⟩
    simp only [Config.codeRun, satSucc] at run ⊢
    split
    case isTrue hs =>
      have hpos : 0 < p.maint.runLength := Nat.pos_of_ne_zero fun h0 => by simp [run.2.mpr h0] at hs
      split <;> omega
    case isFalse => exact ⟨by decide, by decide⟩
  have hlen : m.runLength = (judged p.maint y).runLength := by rw [hm]
  have hloop : m.loop = p.maint.loop := by rw [hm, judged_eq]
  have htimer : m.loopTimer = p.maint.loopTimer := by rw [hm, judged_eq]
  have hmark : m.loopMark = p.maint.loopMark := by rw [hm, judged_eq]
  have hburst : m.burstLeft = p.maint.burstLeft := by rw [hm, judged_eq]
  have habs' : m.absence = (judged p.maint y).absence := by rw [hm]
  have hfar : m.farAlarm = (judged p.maint y).farAlarm := by rw [hm]
  obtain ⟨hsym, hle, hpos⟩ := hrun
  constructor
  case run => simp [hsym, hle]; omega
  case recognized => simpa [hsym, hlen] using hrec
  case zeroed => intro h0; exact absurd (h0.symm.trans ha) Bool.false_ne_true
  case absence => simpa [habs', hfar] using habs
  case timer => simpa [hloop, htimer] using timer
  case mark => simpa [hmark, htimer] using mark
  case disabled => intro h0; exact absurd (h0.symm.trans he) Bool.false_ne_true
  case burst => simpa [hburst] using burst

end Sys2Proof.Proofs
end

section
/-! PROOFS. Every change of a port keeps it sane (O55's ports): loops, frames handed on, slots, periods,
configuration and bursts. -/

namespace Sys2Proof.Proofs

open Sys2Proof Sys2Proof.Machine

/-! ### Loops -/

/-- Outside INWARD_HOST, before and after, the maintenance unit does not touch the line. -/
theorem lineInv_withMaint {p : Port} (h : p.LineInv) {m : Maint}
    (hl : m.loop = p.maint.loop ∨ m.loop ≠ .inwardHost ∧ p.maint.loop ≠ .inwardHost) :
    ({ p with maint := m } : Port).LineInv := by
  obtain hl | ⟨hm, hp⟩ := hl
  · exact lineInv_congr h rfl rfl rfl rfl hl
  · obtain ⟨off, disabled, follows, inward, unframed, forced, noAis, ones, period, window, overhead, verified,
      errored, counter⟩ := h
    constructor <;> simp_all [Port.forced, Port.aligned]

/-- The loop state set, its timer stopped (R151). -/
def withLoop (p : Port) (l : LoopState) : Port :=
  { p with maint := { p.maint with loop := l, loopTimer := 0, loopMark := .plain } }

theorem maintInv_withLoop {p : Port} (h : p.MaintInv) (he : p.config.enable = true) {l : LoopState} :
    (withLoop p l).MaintInv := by
  obtain ⟨run, recognized, zeroed, absence, timer, mark, disabled, burst⟩ := h
  constructor <;> simp_all [withLoop, Port.aligned]

/-- The loop state in force changes nothing; entering INWARD_HOST removes SIG_LOST, leaving it follows LOS_n,
and any other change is the loop's alone (R151, R153). -/
theorem setLoop_cases (p : Port) (l : LoopState) :
    (p.maint.loop = l ∧ p.setLoop l = p) ∨
      p.maint.loop ≠ l ∧
        (l = .inwardHost ∧
            p.setLoop l = { withLoop p l with defects := { p.defects with sigLost := false } } ∨
          l ≠ .inwardHost ∧ p.maint.loop = .inwardHost ∧ p.setLoop l = (withLoop p l).followLos ∨
          l ≠ .inwardHost ∧ p.maint.loop ≠ .inwardHost ∧ p.setLoop l = withLoop p l) := by
  unfold Port.setLoop
  by_cases hsame : p.maint.loop = l
  · exact .inl ⟨hsame, if_pos hsame⟩
  · rw [if_neg hsame]
    refine .inr ⟨hsame, ?_⟩
    by_cases hin : l = .inwardHost
    · exact .inl ⟨hin, if_pos hin⟩
    · dsimp only
      rw [if_neg hin]
      by_cases hout : p.maint.loop = .inwardHost
      · exact .inr (.inl ⟨hin, hout, if_pos hout⟩)
      · exact .inr (.inr ⟨hin, hout, if_neg hout⟩)

theorem sane_setLoop {p : Port} (h : Sane p) (he : p.config.enable = true) (l : LoopState) :
    Sane (p.setLoop l) := by
  have hmaint : (withLoop p l).MaintInv := maintInv_withLoop h.maint he
  have hslip : (withLoop p l).SlipInv := slipInv_congr h.slip rfl rfl rfl rfl rfl rfl
  obtain ⟨-, heq⟩ | ⟨hne, ⟨hl, heq⟩ | ⟨hl, -, heq⟩ | ⟨hl, hp, heq⟩⟩ := setLoop_cases p l
  · rwa [heq]
  · rw [heq]
    refine ⟨?_, slipInv_congr hslip rfl rfl rfl rfl rfl rfl, maintInv_congr hmaint rfl rfl rfl⟩
    obtain ⟨off, disabled, follows, inward, unframed, forced, noAis, ones, period, window, overhead, verified,
      errored, counter⟩ := h.line
    constructor <;> simp_all [withLoop, Port.forced, Port.aligned]
  · rw [heq]
    exact ⟨lineInv_followLos h.line rfl rfl rfl fun hin => absurd hin hl, slipInv_followLos hslip,
      maintInv_followLos hmaint⟩
  · rw [heq]
    exact ⟨lineInv_withMaint h.line (.inr ⟨hl, hp⟩), hslip, hmaint⟩

theorem sane_enterCodeLoop {p : Port} (h : Sane p) (he : p.config.enable = true) (hl : p.maint.loop = .off) :
    Sane p.enterCodeLoop where
  line := lineInv_withMaint h.line (.inr ⟨by simp, by simp [hl]⟩)
  slip := slipInv_congr h.slip rfl rfl rfl rfl rfl rfl
  maint := by
    have htime := p.config.loopTimeout.isLt
    obtain ⟨run, recognized, zeroed, absence, timer, mark, disabled, burst⟩ := h.maint
    unfold Port.enterCodeLoop
    constructor
    case timer => simp only [Config.longUnitFrames]; exact ⟨by omega, fun hne => absurd rfl hne⟩
    all_goals simp_all [Port.aligned]

theorem sane_actOnCode {p : Port} (h : Sane p) (he : p.config.enable = true) (c : Code) :
    Sane (p.actOnCode c) := by
  cases c with
  | loopUp =>
    simp only [Port.actOnCode]
    split
    case isTrue hc => exact sane_enterCodeLoop h he hc.2
    case isFalse => exact h
  | loopDown =>
    simp only [Port.actOnCode]
    split
    · exact sane_setLoop h he .off
    · exact h

/-! ### A frame handed on -/

theorem sane_countSymbol {p : Port} (h : Sane p) (ha : p.aligned = true) (symbol : Nibble) :
    Sane (p.countSymbol symbol).1 := by
  have he : p.config.enable = true := enabled_of_state h.line (by simp [aligned_iff.mp ha])
  have hlen : (judged p.maint (symOf symbol)).runSym = some (symOf symbol) := by rw [judged_eq]
  have hloop : (judged p.maint (symOf symbol)).loop = p.maint.loop := by rw [judged_eq]
  cases hr : (judged p.maint (symOf symbol)).recognizes with
  | some c =>
    rw [countSymbol_some hr]
    refine sane_actOnCode (p := { p with maint := { judged p.maint (symOf symbol) with
      recognized := true, lastCode := some c } }) ⟨lineInv_withMaint h.line (.inl hloop),
      slipInv_congr h.slip rfl rfl rfl rfl rfl rfl, maintInv_judged h.maint ha he rfl ?_⟩ he c
    obtain ⟨hrun, -, hsym⟩ := recognizes_eq_some.mp hr
    obtain hc : symOf symbol = codeSym c := Option.some.inj (hlen.symm.trans hsym)
    refine ⟨fun _ => ⟨hrun, ?_⟩, fun _ => rfl⟩
    rw [hc]
    cases c <;> simp [codeSym]
  | none =>
    rw [countSymbol_none hr]
    refine ⟨lineInv_withMaint h.line (.inl hloop), slipInv_congr h.slip rfl rfl rfl rfl rfl rfl,
      maintInv_judged h.maint ha he rfl ?_⟩
    constructor
    · intro hrec
      have hold := h.maint.recognized
      rw [judged_eq] at hrec
      simp only [Bool.and_eq_true, decide_eq_true_eq] at hrec
      obtain ⟨hrun, hsym⟩ := hold.mp hrec.1
      rw [judged_eq]
      simp only [hrun, hrec.2, Option.some.injEq] at hsym ⊢
      exact ⟨rfl, hsym⟩
    · rintro ⟨hrun, hsym⟩
      by_contra hrec
      have hcode : ∃ c, symOf symbol = codeSym c := by
        rcases hsym with hs | hs
        · exact ⟨.loopUp, hs⟩
        · exact ⟨.loopDown, hs⟩
      obtain ⟨c, hc⟩ := hcode
      rw [recognizes_eq_some.mpr ⟨hrun, eq_false_of_ne_true hrec, hlen.trans (by rw [hc])⟩] at hr
      cases hr

theorem slipInv_header {p : Port} (h : p.SlipInv) {bits : List Bool} (hb : bits.length ≤ 8) :
    ({ p with slip := p.slip.header bits } : Port).SlipInv := by
  unfold SlipBuffer.header
  split
  case h_1 hw =>
    obtain ⟨waiting, writing, slot, whole, stopped, disabled, counts, sent, last, began⟩ := h
    constructor <;> simp_all [Port.aligned]
  all_goals exact h

/-- The overhead byte of an ALIGNED port's frame goes on (R6, R31, R146). -/
theorem sane_handOn {p : Port} (h : Sane p) (ha : p.aligned = true) {seen : List Bool}
    (hseen : seen.length ≤ 8) : Sane (p.handOn seen).1 := by
  have hstate := aligned_iff.mp ha
  have hheader : Sane { p with slip := p.slip.header seen } :=
    ⟨lineInv_congr h.line rfl rfl rfl rfl rfl, slipInv_header h.slip hseen,
      maintInv_congr h.maint rfl rfl rfl⟩
  unfold Port.handOn
  dsimp only
  split
  case isTrue hlt => exact sane_overhead hheader (by simp [hstate]) hlt (by simp [hstate])
  case isFalse =>
    exact sane_countSymbol (sane_overhead hheader (bits := []) (by simp [hstate]) (by simp) (by simp)) ha _

theorem ownIndex_lt (p : Port) (place : Place) (count : Nat) : p.ownIndex place count < 576 := by
  have hlt : p.offset place < 288 := (place - p.txPlace).isLt
  unfold Port.ownIndex
  split <;> simp only [Config.frameBits] at * <;> omega

theorem slipInv_begin {p : Port} (h : p.SlipInv) (ha : p.aligned = true) (he : p.config.enable = true)
    {first : Nat} (hfirst : first < 576) :
    ({ p with slip := p.slip.begin, rxFirst := some first } : Port).SlipInv := by
  obtain ⟨waiting, writing, slot, whole, stopped, disabled, counts, sent, last, began⟩ := h
  unfold SlipBuffer.begin SlipBuffer.countSlip satSucc
  simp only [Port.aligned] at ha
  split
  · constructor <;> simp_all [Port.aligned]
    omega
  · constructor
    case counts =>
      simp only [Config.periodSlipMax, Config.counterMax] at *
      constructor <;> split <;> omega
    case began =>
      intro k hk
      cases hk
      exact hfirst
    all_goals simp_all [Port.aligned]

/-- A frame delivered on an ALIGNED port (R31, R33). -/
theorem sane_deliver {p : Port} (h : Sane p) (ha : p.aligned = true) {seen : List Bool}
    (hseen : seen.length ≤ 8) : Sane (p.deliver seen).1 := by
  have he : p.config.enable = true := enabled_of_state h.line (by simp [aligned_iff.mp ha])
  have hbegun : Sane { p with
      slip := p.slip.begin, rxFirst := some (p.ownIndex p.framer.place seen.length) } :=
    ⟨lineInv_congr h.line rfl rfl rfl rfl rfl, slipInv_begin h.slip ha he (ownIndex_lt p _ _),
      maintInv_congr h.maint rfl rfl rfl⟩
  exact sane_handOn hbegun ha hseen

theorem sane_toAligned {p : Port} (h : Sane p) (hs : p.framer.state = .verify) : Sane p.toAligned where
  line := by
    have he := enabled_of_state h.line (by simp [hs])
    have hforced := not_forced h.line (by simp [hs])
    obtain ⟨off, disabled, follows, inward, unframed, forced, noAis, ones, period, window, overhead, verified,
      errored, counter⟩ := h.line
    unfold Port.toAligned
    constructor <;> simp_all [Port.forced, Port.aligned]
  slip := by
    have he := enabled_of_state h.line (by simp [hs])
    obtain ⟨waiting, writing, slot, whole, stopped, disabled, counts, sent, last, began⟩ := h.slip
    unfold Port.toAligned
    constructor <;> simp_all [Port.aligned, SlipBuffer.recentre, Frame.ones]
  maint := by
    obtain ⟨run, recognized, zeroed, absence, timer, mark, disabled, burst⟩ := h.maint
    unfold Port.toAligned
    constructor <;> simp_all [Port.aligned]

theorem toAligned_aligned (p : Port) : p.toAligned.aligned = true := rfl

theorem sane_missed {p : Port} (h : Sane p) (hs : p.framer.state ≠ .search) (nibble : List Bool)
    (hn : nibble.length ≤ 4) : Sane (p.missed nibble) :=
  sane_toSearch h (not_forced h.line hs) _ (by rw [List.length_drop]; omega)

theorem sane_verify {p : Port} (h : Sane p) (bits : List Bool) : Sane (p.verify bits).1 := by
  have hseen := length_seen h.line.overhead.1 bits
  unfold Port.verify
  split
  case isFalse => exact h
  case isTrue hs =>
    dsimp only
    split
    case isTrue hlt => exact sane_overhead h (by simp [hs]) (by omega) fun _ => hlt
    case isFalse =>
      split
      case isTrue =>
        split
        case isTrue hv =>
          have hover := sane_overhead h (bits := []) (by simp [hs]) (by simp) (by simp)
          obtain ⟨off, disabled, follows, inward, unframed, forced, noAis, ones, period, window, overhead,
            verified, errored, counter⟩ := hover.line
          refine ⟨?_, slipInv_congr h.slip rfl rfl rfl rfl rfl rfl, maintInv_congr h.maint rfl rfl rfl⟩
          constructor <;> simp_all [Port.forced, Port.aligned]
        case isFalse => exact sane_deliver (sane_toAligned h hs) (toAligned_aligned p) hseen
      case isFalse => exact sane_missed h (by simp [hs]) _ (by simp)

/-- The errored run and count of an ALIGNED port, three in a row at most. -/
theorem sane_errored {p : Port} (h : Sane p) (ha : p.aligned = true) {run count : Nat} (hrun : run ≤ 3)
    (hcount : count ≤ 65535) :
    Sane { p with framer := { p.framer with erroredRun := run, erroredCount := count } } where
  line := by
    obtain ⟨off, disabled, follows, inward, unframed, forced, noAis, ones, period, window, overhead, verified,
      errored, counter⟩ := h.line
    simp only [Port.aligned] at ha
    constructor <;> simp_all [Port.forced, Port.aligned]
  slip := slipInv_congr h.slip rfl rfl rfl rfl rfl rfl
  maint := maintInv_congr h.maint rfl rfl rfl

theorem satSucc_le {max x : Nat} (h : x ≤ max) : satSucc max x ≤ max := by
  unfold satSucc
  split <;> omega

theorem sane_receive {p : Port} (h : Sane p) (bits : List Bool) : Sane (p.receive bits).1 := by
  have hseen := length_seen h.line.overhead.1 bits
  unfold Port.receive
  split
  case isFalse => exact h
  case isTrue ha =>
    have hs : p.framer.state ≠ .search := by simp [aligned_iff.mp ha]
    have hv : p.framer.state ≠ .verify := by simp [aligned_iff.mp ha]
    have hcount := satSucc_le h.line.counter
    dsimp only
    split
    case isTrue => exact sane_handOn h ha hseen
    case isFalse =>
      split
      case isTrue hlt => exact sane_overhead h hs (by omega) fun hverify => absurd hverify hv
      case isFalse =>
        split
        case isTrue =>
          exact sane_deliver (sane_errored (run := 0) h ha (by decide) h.line.counter) ha hseen
        case isFalse =>
          split
          case isTrue =>
            -- the run is reset on the way to SEARCH, so the one counted here does not show
            have hreset := sane_missed (sane_errored (run := 0) h ha (by decide) hcount) hs
              ((p.seen bits).take 4) (by simp)
            rw [Port.missed, toSearch_eq] at hreset ⊢
            exact hreset
          case isFalse hrun =>
            exact sane_deliver (sane_errored h ha (Nat.le_of_lt_succ (Nat.lt_of_not_le hrun)) hcount) ha hseen

/-! ### Slots, periods and counts -/

theorem sane_withSlip {p : Port} (h : Sane p) {b : SlipBuffer} (hb : ({ p with slip := b } : Port).SlipInv) :
    Sane { p with slip := b } :=
  ⟨lineInv_congr h.line rfl rfl rfl rfl rfl, hb, maintInv_congr h.maint rfl rfl rfl⟩

theorem slipInv_writeSlot {p : Port} (h : p.SlipInv) (bits : List Bool) :
    ({ p with slip := p.slip.writeSlot bits } : Port).SlipInv := by
  unfold SlipBuffer.writeSlot
  split
  case h_2 => exact h
  case h_1 w hw =>
    split
    case isFalse => exact h
    case isTrue hlen =>
      obtain ⟨waiting, writing, slot, whole, stopped, disabled, counts, sent, last, began⟩ := h
      simp only [Config.lastSlot] at hlen
      split
      case isTrue hb =>
        constructor <;> simp_all [Port.aligned]
        omega
      case isFalse hb => constructor <;> simp_all [Port.aligned]

theorem slipInv_complete {p : Port} (h : p.SlipInv) (ha : p.slip.writing ≠ none → p.config.enable = true)
    (bits : List Bool) : ({ p with slip := p.slip.complete bits } : Port).SlipInv := by
  unfold SlipBuffer.complete
  split
  case h_2 => exact h
  case h_1 w hw =>
    split
    case isFalse => exact h
    case isTrue hlen =>
      have he : p.config.enable = true := ha (by simp [hw])
      obtain ⟨waiting, writing, slot, whole, stopped, disabled, counts, sent, last, began⟩ := h
      simp only [Config.lastSlot] at hlen
      split
      case isTrue hb =>
        constructor <;> simp_all [Port.aligned]
        omega
      case isFalse hb =>
        obtain ⟨hwait, -⟩ := writing w hw
        obtain ⟨hframes, hread⟩ := whole
        constructor
        case waiting => simp only [List.length_append, List.length_cons, List.length_nil]; omega
        case whole =>
          refine ⟨fun f hf => ?_, hread⟩
          rcases List.mem_append.mp hf with hf | hf
          · exact hframes f hf
          · simp only [List.mem_singleton] at hf
            simp [hf, hlen]
        all_goals simp_all [Port.aligned]

theorem sane_portWriteSlot {p : Port} (h : Sane p) (bits : List Bool) : Sane (p.writeSlot bits) := by
  unfold Port.writeSlot
  split
  · exact sane_withSlip h (slipInv_writeSlot h.slip _)
  · exact h

theorem sane_complete {p : Port} (h : Sane p) (bits : List Bool) : Sane (p.complete bits) := by
  have he : p.slip.writing ≠ none → p.config.enable = true := by
    intro hw
    by_contra hd
    exact hw (h.slip.stopped (not_aligned_of_disabled h.line (eq_false_of_ne_true hd)))
  unfold Port.complete
  split
  · exact sane_withSlip h (slipInv_complete h.slip he _)
  · exact h

theorem sane_onesPeriod {p : Port} (h : Sane p) (he : p.config.enable = true) (ha : p.aligned = false)
    (ones : Bool) : Sane (p.onesPeriod ones) := by
  unfold Port.onesPeriod
  obtain ⟨off, disabled, follows, inward, unframed, forced, noAis, hones, period, window, overhead, verified,
    errored, counter⟩ := h.line
  have hrun := satSucc_le hones
  split
  all_goals
    refine ⟨?_, slipInv_congr h.slip rfl rfl rfl rfl rfl rfl, maintInv_congr h.maint rfl rfl rfl⟩
    constructor <;> simp_all [Port.forced, Port.aligned]

theorem sane_periodBits {p : Port} (h : Sane p) (first : Place) (bits : List Bool) :
    Sane (p.periodBits first bits) := by
  have hperiod : ∀ q : OnesPeriod, q.count < 288 →
      Sane { p with framer := { p.framer with period := q } } := by
    intro q hq
    refine ⟨?_, slipInv_congr h.slip rfl rfl rfl rfl rfl rfl, maintInv_congr h.maint rfl rfl rfl⟩
    obtain ⟨off, disabled, follows, inward, unframed, forced, noAis, ones, period, window, overhead, verified,
      errored, counter⟩ := h.line
    constructor <;> simp_all [Port.forced, Port.aligned]
  unfold Port.periodBits
  split
  case isFalse => exact h
  case isTrue hg =>
    dsimp only
    split
    case isTrue hlt => exact hperiod _ hlt
    case isFalse => exact sane_onesPeriod (hperiod ⟨_, 0, true⟩ (Nat.zero_lt_succ _)) hg.1 hg.2 _

theorem sane_judgeSlips {p : Port} (h : Sane p) : Sane p.judgeSlips := by
  have hslip : ({ p with slip := { p.slip with periodSlips := 0 } } : Port).SlipInv := by
    obtain ⟨waiting, writing, slot, whole, stopped, disabled, counts, sent, last, began⟩ := h.slip
    constructor <;> simp_all [Port.aligned]
  unfold Port.judgeSlips
  split
  case isTrue he =>
    refine ⟨?_, slipInv_congr hslip rfl rfl rfl rfl rfl rfl, maintInv_congr h.maint rfl rfl rfl⟩
    obtain ⟨off, disabled, follows, inward, unframed, forced, noAis, ones, period, window, overhead, verified,
      errored, counter⟩ := h.line
    constructor <;> simp_all [Port.forced, Port.aligned]
  case isFalse => exact sane_withSlip h hslip

theorem sane_expireLoop {p : Port} (h : Sane p) (turn : Turn) : Sane (p.expireLoop turn) := by
  unfold Port.expireLoop
  split
  case isFalse => exact h
  case isTrue hg =>
    have he : p.config.enable = true := by
      by_contra hd
      obtain ⟨hoff, -⟩ := h.maint.disabled (eq_false_of_ne_true hd)
      rw [hg.1] at hoff
      cases hoff
    exact sane_setLoop h he .off

theorem sane_clearCounts {p : Port} (h : Sane p) : Sane p.clearCounts where
  line := by
    obtain ⟨off, disabled, follows, inward, unframed, forced, noAis, ones, period, window, overhead, verified,
      errored, counter⟩ := h.line
    unfold Port.clearCounts
    constructor <;> simp_all [Port.forced, Port.aligned]
  slip := by
    obtain ⟨waiting, writing, slot, whole, stopped, disabled, counts, sent, last, began⟩ := h.slip
    unfold Port.clearCounts
    constructor <;> simp_all [Port.aligned]
  maint := maintInv_congr h.maint rfl rfl rfl

/-! ### Bursts -/

theorem sane_endBurst {p : Port} (h : Sane p) : Sane { p with maint := p.maint.endBurst } := by
  unfold Maint.endBurst
  refine ⟨lineInv_withMaint h.line (.inl ?_), slipInv_congr h.slip rfl rfl rfl rfl rfl rfl, ?_⟩
  · split <;> rfl
  · obtain ⟨run, recognized, zeroed, absence, timer, mark, disabled, burst⟩ := h.maint
    constructor <;> split <;> simp_all [Port.aligned]

theorem sane_setBurst {p : Port} (h : Sane p) (c : Code) {count : Nat} (he : p.config.enable = true)
    (hcount : count ≤ 65535) : Sane { p with maint := p.maint.setBurst c count } := by
  refine ⟨lineInv_withMaint h.line (.inl (setBurst_quiet p.maint c count).2),
    slipInv_congr h.slip rfl rfl rfl rfl rfl rfl, ?_⟩
  unfold Maint.setBurst
  obtain ⟨run, recognized, zeroed, absence, timer, mark, disabled, burst⟩ := h.maint
  constructor <;> split <;> simp_all [Port.aligned]

/-! ### Configuration -/

theorem sane_store {p : Port} (h : Sane p) {c : PortConfig} (hc : c.enable = p.config.enable) :
    Sane { p with config := c } :=
  ⟨lineInv_congr h.line hc rfl rfl rfl rfl, slipInv_congr h.slip hc rfl rfl rfl rfl rfl,
    maintInv_congr h.maint hc rfl rfl⟩

theorem sane_enableUp {p : Port} (h : Sane p) (hd : p.config.enable = false) : Sane p.enableUp := by
  have ha := not_aligned_of_disabled h.line hd
  obtain ⟨hloop, -⟩ := h.maint.disabled hd
  obtain ⟨hlost, hais, hexcess⟩ := h.line.disabled hd
  unfold Port.enableUp
  refine ⟨?_, slipInv_followLos ?_, maintInv_followLos ?_⟩
  · have hline : ({ p with
        config := { p.config with enable := true },
        framer := { p.framer with state := .search, verified := 0, next := none, recent := [], overhead := [],
                                  erroredRun := 0, allOnesRun := 0, period := OnesPeriod.start },
        defects := { p.defects with off := false, unframed := true },
        los := false } : Port).LineInv := by
      obtain ⟨off, disabled, follows, inward, unframed, forced, noAis, ones, period, window, overhead,
        verified, errored, counter⟩ := h.line
      constructor <;> simp_all [Port.forced, Port.aligned, OnesPeriod.start]
    exact lineInv_followLos hline rfl rfl rfl fun _ => hlost
  · obtain ⟨waiting, writing, slot, whole, stopped, disabled, counts, sent, last, began⟩ := h.slip
    constructor <;> simp_all [Port.aligned, SlipBuffer.recentre, Frame.ones]
  · obtain ⟨run, recognized, zeroed, absence, timer, mark, disabled, burst⟩ := h.maint
    constructor <;> simp_all [Port.aligned]

theorem sane_disableDown {p : Port} (h : Sane p) : Sane p.disableDown := by
  unfold Port.disableDown
  rw [toSearch_eq]
  refine ⟨?_, ?_, ?_⟩
  · obtain ⟨off, disabled, follows, inward, unframed, forced, noAis, ones, period, window, overhead, verified,
      errored, counter⟩ := h.line
    constructor
    case period => dsimp only; split <;> simp_all
    all_goals simp_all [Port.forced, Port.aligned, Maint.ended, Maint.powerOn]
  · obtain ⟨waiting, writing, slot, whole, stopped, disabled, counts, sent, last, began⟩ := h.slip
    cases ha : p.aligned
    all_goals constructor <;> simp_all [Port.aligned, SlipBuffer.emptied, SlipBuffer.stop]
  · constructor <;> simp [Port.aligned, Maint.ended, Maint.powerOn]

theorem sane_set {p : Port} (h : Sane p) (q : PortSetReq) (b : PortSetBits) : Sane (p.set q b) := by
  have hstore : Sane { p with config := p.config.store q b } := sane_store h rfl
  unfold Port.set Port.setEnable
  split
  · split
    case isTrue => exact hstore
    case isFalse hd => exact sane_enableUp hstore (eq_false_of_ne_true hd)
  · split
    · exact sane_disableDown hstore
    · exact hstore
  · exact hstore

/-! ### Every change -/

theorem sane_locate {p : Port} (h : Sane p) (lastStart moment : Nat) (bits : List Bool) :
    Sane (p.locate lastStart moment bits) := by
  unfold Port.locate
  split
  · exact ⟨lineInv_congr h.line rfl rfl rfl rfl rfl, slipInv_congr h.slip rfl rfl rfl rfl rfl rfl,
      maintInv_congr h.maint rfl rfl rfl⟩
  · exact h

theorem PortChange.keeps_sane {p q : Port} {code : Bool} (hq : PortChange p q code) (h : Sane p) : Sane q := by
  cases hq with
  | los level => exact sane_los h level
  | candidate first bits => exact sane_candidate h first bits
  | verify bits => exact sane_verify h bits
  | receive lastStart moment bits => exact sane_receive (sane_locate h lastStart moment bits) bits
  | writeSlot bits => exact sane_portWriteSlot h bits
  | complete bits => exact sane_complete h bits
  | periodBits first bits => exact sane_periodBits h first bits
  | endBurst => exact sane_endBurst h
  | judgeSlips => exact sane_judgeSlips h
  | expireLoop turn => exact sane_expireLoop h turn
  | set q b => exact sane_set h q b
  | setLoop l he hl => exact sane_setLoop h he l
  | setBurst c count he hcount => exact sane_setBurst h c he hcount
  | clearCounts => exact sane_clearCounts h

end Sys2Proof.Proofs
end

section
/-! PROOFS. A system frame start, said once: what the interchange leaves of the ports and the reference, and
what each port has after it. -/

namespace Sys2Proof.Proofs

open Sys2Proof Sys2Proof.Machine

/-! ### The tables' side and the line's side -/

/-- Ports, reference, counts and enables. -/
def lineSide (s : State) := (s.ports, s.ref, s.interval, s.slipPeriod, s.enableM, s.enableS)

theorem lineSide_eq_iff {s t : State} : lineSide t = lineSide s ↔
    t.ports = s.ports ∧ t.ref = s.ref ∧ t.interval = s.interval ∧ t.slipPeriod = s.slipPeriod ∧
      t.enableM = s.enableM ∧ t.enableS = s.enableS := by
  simp only [lineSide, Prod.mk.injEq]

theorem ports_of_lineSide {s t : State} (h : lineSide t = lineSide s) : t.ports = s.ports :=
  congrArg Prod.fst h

theorem ref_of_lineSide {s t : State} (h : lineSide t = lineSide s) : t.ref = s.ref :=
  (lineSide_eq_iff.mp h).2.1

@[simp] theorem lineSide_postIf (s : State) (b : Bool) (x : Subject) (c : Change) :
    lineSide (s.postIf b x c) = lineSide s := by simp [lineSide]

@[simp] theorem lineSide_setRecord (s : State) (id : Nat) (r : Record) :
    lineSide (s.setRecord id r) = lineSide s := rfl

@[simp] theorem lineSide_freeRecord (s : State) (id : Nat) (r : Record) :
    lineSide (s.freeRecord id r) = lineSide s := by simp [lineSide]

@[simp] theorem lineSide_commitContext (s : State) (id k : Nat) (a b : Context) :
    lineSide (s.commitContext id k a b) = lineSide s := by simp [lineSide]

@[simp] theorem lineSide_recompute (s : State) (id : Nat) : lineSide (s.recompute id) = lineSide s := by
  unfold State.recompute
  split
  case h_1 => rfl
  case h_2 r _ =>
    split
    · exact lineSide_freeRecord s id r
    · rw [State.installAtFrame, lineSide_postIf]
      rfl

@[simp] theorem lineSide_applyPending (s : State) : lineSide s.applyPending = lineSide s :=
  foldl_keeps lineSide_recompute _ s

@[simp] theorem lineSide_evaluateRecord (turn : Turn) (s : State) (id : Nat) :
    lineSide (s.evaluateRecord turn id) = lineSide s := by
  have hfails : ∀ (u : State) (r r' : Record), lineSide (u.handFails turn id r r') = lineSide u := by
    intro u r r'
    unfold State.handFails
    split
    · exact lineSide_commitContext ..
    · rfl
  unfold State.evaluateRecord
  repeat' split
  all_goals simp only [hfails, lineSide_postIf, lineSide_setRecord]

@[simp] theorem lineSide_evaluate (s : State) (turn : Turn) : lineSide (s.evaluate turn) = lineSide s :=
  foldl_keeps (lineSide_evaluateRecord turn) _ s

@[simp] theorem lineSide_expireWait (turn : Turn) (s : State) (id : Nat) :
    lineSide (s.expireWait turn id) = lineSide s := by
  unfold State.expireWait
  repeat' split
  all_goals simp only [lineSide_commitContext]

theorem RecordAct.keeps_lineSide {act : Nat → Record → State → Answer × State} (h : RecordAct act)
    (id : Nat) (r : Record) (s : State) : lineSide (act id r s).2 = lineSide s := by
  cases h with
  | modify q =>
    unfold modifyRecord modifyAdd modifyRemove
    repeat' split
    all_goals rfl
  | retire => unfold retireRecord; split <;> simp
  | hold => unfold holdRecord; split <;> rfl
  | release => unfold releaseRecord; split <;> rfl
  | protect q =>
    unfold protectRecord
    repeat' split
    all_goals rfl
  | unprotect =>
    unfold unprotectRecord
    repeat' split
    all_goals rfl
  | switch command =>
    unfold switchRecord
    repeat' split
    all_goals simp

/-! ### A system frame start -/

/-- The slip buffers have given their read frames. -/
def framesTaken (s : State) : State := { s with ports := mapPorts (fun _ p => p.takeFrame) s.ports }

/-- Then the interchange has applied its set and the counts and timers have counted. -/
def interchanged (s : State) : State := (framesTaken s).applyPending.tickCounts

theorem frameStart_eq (s : State) : s.frameStart =
    { interchanged s with ports := mapPorts (interchanged s).startFrame (interchanged s).ports } := rfl

theorem ports_interchanged (s : State) :
    (interchanged s).ports = mapPorts (fun _ p => p.takeFrame) s.ports :=
  ports_of_lineSide (lineSide_applyPending (framesTaken s))

theorem ref_interchanged (s : State) : (interchanged s).ref = s.ref :=
  (ref_of_lineSide (lineSide_applyPending (framesTaken s)) :)

@[simp] theorem ref_frameStart (s : State) : s.frameStart.ref = s.ref := ref_interchanged s

/-- A port's system frame start: its read frame, then its transmit frame. -/
theorem port_frameStart (s : State) (n : PortNo) :
    s.frameStart.ports[n] = (interchanged s).startFrame n s.ports[n].takeFrame := by
  rw [frameStart_eq]
  dsimp only
  rw [mapPorts_get, ports_interchanged, mapPorts_get]

/-- What the transmit side writes, on an enabled port and on a disabled one (R15, R18). -/
theorem startFrame_eq (s : State) (n : PortNo) (p : Port) : s.startFrame n p = { p with
    txLast := p.lastSent 288,
    rxFirst := p.rxFirst.bind fun k => if 288 ≤ k then some (k - 288) else none,
    txSymbol := if p.config.enable then p.chooseSymbol else p.txSymbol,
    txPayload := if p.config.enable then some (s.payload n) else none,
    maint := if p.config.enable then p.maint.burstFrame.tick else p.maint.tick } := by
  unfold State.startFrame Port.endFrame
  split <;> rfl

/-- A port after a system frame start, in the selections and read frames of the interchange. -/
theorem port_frameStart_eq (s : State) (n : PortNo) : s.frameStart.ports[n] = { s.ports[n] with
    txLast := s.ports[n].lastSent 288,
    rxFirst := s.ports[n].rxFirst.bind fun k => if 288 ≤ k then some (k - 288) else none,
    txSymbol := if s.ports[n].config.enable then s.ports[n].chooseSymbol else s.ports[n].txSymbol,
    txPayload := if s.ports[n].config.enable then some ((interchanged s).payload n) else none,
    slip := s.ports[n].slip.take s.ports[n].aligned,
    maint := if s.ports[n].config.enable then s.ports[n].maint.burstFrame.tick
      else s.ports[n].maint.tick } := by
  rw [port_frameStart, startFrame_eq]
  rfl

theorem aligned_frameStart (s : State) (n : PortNo) :
    s.frameStart.ports[n].aligned = s.ports[n].aligned := by
  rw [port_frameStart_eq]
  rfl

/-! ### Sane ports through a system frame start -/

theorem slipInv_take {p : Port} (h : Sane p) : ({ p with slip := p.slip.take p.aligned } : Port).SlipInv := by
  have hdisabled := not_aligned_of_disabled h.line
  obtain ⟨waiting, writing, slot, whole, stopped, disabled, counts, sent, last, began⟩ := h.slip
  unfold SlipBuffer.take
  split
  case isTrue ha =>
    have he : p.config.enable = true := by
      by_contra hd
      rw [hdisabled (eq_false_of_ne_true hd)] at ha
      cases ha
    split
    case h_1 f rest hw =>
      rw [hw] at waiting writing whole
      simp only [List.length_cons, List.forall_mem_cons] at waiting writing whole
      obtain ⟨⟨hf, hrest⟩, -⟩ := whole
      constructor
      case waiting => simp only; omega
      case writing => exact fun w hw' => ⟨by have := (writing w hw').1; simp only; omega, (writing w hw').2⟩
      case whole => exact ⟨hrest, hf⟩
      all_goals simp_all [Port.aligned]
    case h_2 =>
      obtain ⟨hperiod, hslips⟩ := counts
      constructor
      case counts => exact ⟨satSucc_le hperiod, satSucc_le hslips⟩
      all_goals simp_all [Port.aligned, SlipBuffer.countSlip]
  case isFalse => constructor <;> simp_all [Port.aligned, Frame.ones]

theorem sane_takeFrame {p : Port} (h : Sane p) : Sane p.takeFrame := sane_withSlip h (slipInv_take h)

theorem length_payload (s : State) (n : PortNo) : (s.payload n).length = 35 := by
  simp [State.payload]

theorem began_sub {p : Port} (h : p.SlipInv) (sent : Nat) :
    ∀ k, (p.rxFirst.bind fun k => if sent ≤ k then some (k - sent) else none) = some k → k < 576 := by
  intro k hk
  obtain ⟨j, hj, hk⟩ := Option.bind_eq_some_iff.mp hk
  have hlt := h.began j hj
  split at hk
  · cases hk
    exact lt_of_le_of_lt (Nat.sub_le ..) hlt
  · cases hk

theorem tick_fields (m : Maint) : m.tick.loop = m.loop ∧
    m.tick = { m with loopTimer := m.tick.loopTimer, loopMark := m.tick.loopMark } := by
  unfold Maint.tick
  repeat' split
  all_goals exact ⟨rfl, rfl⟩

theorem maintInv_tick {p : Port} (h : p.MaintInv) : ({ p with maint := p.maint.tick } : Port).MaintInv := by
  obtain ⟨run, recognized, zeroed, absence, timer, mark, disabled, burst⟩ := h
  unfold Maint.tick
  repeat' split
  · constructor <;> simp_all [Port.aligned]
  · constructor <;> simp_all [Port.aligned]
  · obtain ⟨hle, hzero⟩ := timer
    obtain ⟨hfresh, hdue⟩ := mark
    constructor
    case timer => exact ⟨(Nat.sub_le ..).trans hle, fun hne => by rw [hzero hne]⟩
    case mark => exact ⟨hfresh, fun hd => absurd (hdue hd) ‹_›⟩
    all_goals simp_all [Port.aligned]

theorem maintInv_burstFrame {p : Port} (h : p.MaintInv) :
    ({ p with maint := p.maint.burstFrame } : Port).MaintInv := by
  obtain ⟨run, recognized, zeroed, absence, timer, mark, disabled, burst⟩ := h
  constructor <;> simp_all [Port.aligned, Maint.burstFrame]
  omega

theorem sane_startFrame {p : Port} (h : Sane p) (s : State) (n : PortNo) : Sane (s.startFrame n p) := by
  have hlast : (p.lastSent 288).length = 288 := length_lastSent h.slip.last (length_txBits h.slip.sent) le_rfl
  have hbegan := began_sub h.slip 288
  rw [startFrame_eq]
  refine ⟨?_, ?_, ?_⟩
  · refine lineInv_congr h.line rfl rfl rfl rfl ?_
    dsimp only
    split
    · exact (tick_fields _).1
    · exact (tick_fields _).1
  · obtain ⟨waiting, writing, slot, whole, stopped, disabled, counts, sent, last, began⟩ := h.slip
    constructor
    case last => exact hlast
    case began => exact hbegan
    case sent =>
      intro b hb
      dsimp only at hb
      split at hb
      · cases hb
        exact length_payload s n
      · cases hb
    all_goals simp_all [Port.aligned]
  · split
    · exact maintInv_congr (maintInv_tick (maintInv_burstFrame h.maint)) rfl rfl rfl
    · exact maintInv_congr (maintInv_tick h.maint) rfl rfl rfl

/-- Every port of a state is sane. -/
def SanePorts (s : State) : Prop := ∀ n : PortNo, Sane s.ports[n]

theorem portsInv_iff {s : State} : s.PortsInv ↔ SanePorts s :=
  ⟨fun h n => ⟨(h n).1, (h n).2.1, (h n).2.2⟩, fun h n => ⟨(h n).line, (h n).slip, (h n).maint⟩⟩

theorem sanePorts_congr {s t : State} (h : SanePorts s) (hp : t.ports = s.ports) : SanePorts t := by
  intro n
  rw [hp]
  exact h n

theorem sanePorts_frameStart {s : State} (h : SanePorts s) : SanePorts s.frameStart := by
  intro n
  rw [port_frameStart]
  exact sane_startFrame (sane_takeFrame (h n)) _ n

theorem sanePorts_startAt {s : State} (h : SanePorts s) (moment : Nat) (r : RefMonitor) :
    SanePorts (s.startAt moment r) := sanePorts_frameStart h

/-! ### Sane ports through the marks -/

theorem bitsSent_le (s : State) (moment : Nat) : s.bitsSent moment ≤ 288 := min_le_left ..

/-- A re-acquisition cuts the frame as it stood before (R27). -/
theorem sane_reacquire {p before : Port} (hp : Sane p) (hb : Sane before) {sent : Nat} (hs : sent ≤ 288) :
    Sane (p.reacquire before sent) := by
  have hlast := length_lastSent hb.slip.last (length_txBits hb.slip.sent) hs
  have hbegan := began_sub hb.slip sent
  refine ⟨lineInv_congr hp.line rfl rfl rfl rfl rfl, ?_, maintInv_congr hp.maint rfl rfl rfl⟩
  obtain ⟨waiting, writing, slot, whole, stopped, disabled, counts, hsent, last, began⟩ := hp.slip
  unfold Port.reacquire
  constructor
  case last => exact hlast
  case began => exact hbegan
  case sent => exact hsent
  all_goals
    dsimp only
    split
    · simp_all [Port.aligned, SlipBuffer.recentre, Frame.ones]
    · simp_all [Port.aligned]

/-- The ports after the re-acquiring mark: their system frame start, then the cut (R27). -/
theorem port_reacquireAt (s : State) (moment : Nat) (n : PortNo) : ∃ t : State,
    t.ports = s.ports ∧ t.records = s.records ∧ (s.reacquireAt moment).ports[n] =
      t.frameStart.ports[n].reacquire s.ports[n] (s.bitsSent moment) := by
  refine ⟨{ s with ref := { s.ref with
    state := .refOk, windowOpen := false, missed := 0, good := 0, lastMark := none, point := moment,
    lastStart := moment } }, rfl, rfl, ?_⟩
  rw [State.reacquireAt]
  dsimp only
  rw [mapPorts_get]
  rfl

theorem sanePorts_reacquireAt {s : State} (h : SanePorts s) (moment : Nat) :
    SanePorts (s.reacquireAt moment) := by
  intro n
  obtain ⟨t, ht, -, heq⟩ := port_reacquireAt s moment n
  rw [heq]
  exact sane_reacquire (sanePorts_frameStart (sanePorts_congr h ht) n) (h n) (bitsSent_le s moment)

/-- What a mark makes: a system frame start, the re-acquisition, or a change of the monitor alone. -/
theorem mark_cases (s : State) (moment : Nat) :
    (s.ref.state = .refOk ∧ (s.mark moment = s ∨
        s.ref.windowOpen = true ∧
          s.mark moment = { s with ref := { s.ref with point := moment, missed := 0, windowOpen := false } } ∨
        s.ref.windowOpen = false ∧ s.mark moment = s.startAt moment { s.ref with missed := 0 })) ∨
      s.ref.state = .freewheel ∧ (16 ≤ s.ref.goodRun moment ∧ s.mark moment = s.reacquireAt moment ∨
        s.ref.goodRun moment < 16 ∧ s.mark moment =
          { s with ref := { s.ref with good := s.ref.goodRun moment, lastMark := some moment } }) := by
  cases hs : s.ref.state with
  | refOk =>
    refine .inl ⟨rfl, ?_⟩
    simp only [State.mark, hs, State.markOk]
    split
    case isTrue hw =>
      split
      · exact .inr (.inl ⟨hw, rfl⟩)
      · exact .inl rfl
    case isFalse hw =>
      split
      · exact .inr (.inr ⟨eq_false_of_ne_true hw, by rw [← hs]⟩)
      · exact .inl rfl
  | freewheel =>
    refine .inr ⟨rfl, ?_⟩
    simp only [State.mark, hs, State.markFree, Config.goodMarks]
    split
    case isTrue h => exact .inl ⟨h, rfl⟩
    case isFalse h => exact .inr ⟨Nat.lt_of_not_le h, by rw [← hs]⟩

theorem sanePorts_mark {s : State} (h : SanePorts s) (moment : Nat) : SanePorts (s.mark moment) := by
  obtain ⟨-, heq | ⟨-, heq⟩ | ⟨-, heq⟩⟩ | ⟨-, ⟨-, heq⟩ | ⟨-, heq⟩⟩ := mark_cases s moment
  · rwa [heq]
  · rw [heq]
    exact sanePorts_congr h rfl
  · rw [heq]
    exact sanePorts_startAt h _ _
  · rw [heq]
    exact sanePorts_reacquireAt h moment
  · rw [heq]
    exact sanePorts_congr h rfl

/-- What every mark and start keeps, any number of them keep. -/
theorem marks_preserve {P : State → Prop} (hP : ∀ s t, MarkStep s t → P s → P t) {s t : State}
    (h : Relation.ReflTransGen MarkStep s t) (hs : P s) : P t := by
  induction h with
  | refl => exact hs
  | tail _ hstep ih => exact hP _ _ hstep ih

theorem MarkStep.keeps_sanePorts {s t : State} (h : MarkStep s t) (hs : SanePorts s) : SanePorts t := by
  cases h with
  | mark m => exact sanePorts_mark hs m
  | oscillator => exact sanePorts_startAt hs _ _

/-! ### Sane ports through every effect -/

theorem sanePorts_changePort {s : State} (h : SanePorts s) (n : PortNo) {q : Port} (hq : Sane q) :
    SanePorts (s.changePort n q) := by
  intro m
  by_cases hm : m = n
  · subst hm
    rw [changePort_same]
    exact hq
  · rw [changePort_other s q hm]
    exact h m

/-- A property that each of many steps keeps is kept by all of them. -/
theorem foldl_preserves {α : Type} {P : State → Prop} {f : State → α → State} (hf : ∀ s a, P s → P (f s a))
    (l : List α) {s : State} (h : P s) : P (l.foldl f s) := by
  induction l generalizing s with
  | nil => exact h
  | cons a l ih => exact ih (hf s a h)

/-- A port through DEVICE_RESET is sane but for a SIG_LOST that has yet to follow LOS_n where it leaves
INWARD_HOST (R22). -/
theorem sane_deviceReset {p : Port} (h : Sane p) : Sane p.deviceReset.followLos ∧
    (p.maint.loop ≠ .inwardHost → Sane p.deviceReset) := by
  have hslip : p.deviceReset.SlipInv := by
    obtain ⟨waiting, writing, slot, whole, stopped, disabled, counts, sent, last, began⟩ := h.slip
    unfold Port.deviceReset
    constructor <;> simp_all [Port.aligned]
  have hmaint : p.deviceReset.MaintInv := by
    unfold Port.deviceReset Maint.ended
    constructor <;> simp [Maint.powerOn, Port.aligned]
  have hline := (sane_clearCounts h).line
  exact ⟨⟨lineInv_followLos hline rfl rfl rfl fun hin => (by cases hin), slipInv_followLos hslip,
    maintInv_followLos hmaint⟩, fun hl => ⟨lineInv_congr
      (lineInv_withMaint hline (m := p.maint.ended) (.inr ⟨by simp [Maint.ended, Maint.powerOn], hl⟩))
      rfl rfl rfl rfl rfl, hslip, hmaint⟩⟩

/-! ### One port after another -/

/-- Steps that each change their own port, by a function of it, change every port of their list once. -/
theorem ports_foldl {f : State → PortNo → State} {g : PortNo → Port → Port}
    (hf : ∀ s n m, (f s n).ports[m] = if m = n then g n s.ports[n] else s.ports[m]) {l : List PortNo}
    (hl : l.Nodup) (s : State) (m : PortNo) :
    (l.foldl f s).ports[m] = if m ∈ l then g m s.ports[m] else s.ports[m] := by
  induction l generalizing s with
  | nil => rfl
  | cons n l ih =>
    obtain ⟨hn, hl⟩ := List.nodup_cons.mp hl
    rw [List.foldl_cons, ih hl, hf]
    by_cases hm : m = n
    · subst hm
      rw [if_neg hn, if_pos rfl, if_pos (List.mem_cons_self ..)]
    · rw [if_neg hm]
      exact if_congr (by simp [hm]) rfl rfl

theorem ports_foldl_all {f : State → PortNo → State} {g : PortNo → Port → Port}
    (hf : ∀ s n m, (f s n).ports[m] = if m = n then g n s.ports[n] else s.ports[m]) (s : State) (m : PortNo) :
    ((List.finRange 16).foldl f s).ports[m] = g m s.ports[m] := by
  rw [ports_foldl hf (List.nodup_finRange 16), if_pos (List.mem_finRange m)]

theorem changePort_get (s : State) (n m : PortNo) (q : Port) :
    (s.changePort n q).ports[m] = if m = n then q else s.ports[m] := by
  rw [ports_changePort, set_get]

/-- A sweep changes every port by its function. -/
theorem ports_changePorts (s : State) (f : Port → Port) (m : PortNo) :
    (s.changePorts f).ports[m] = f s.ports[m] :=
  ports_foldl_all (g := fun _ => f) (fun s n m => changePort_get s n m _) s m

theorem ports_releaseInward (before s : State) (n m : PortNo) : (before.releaseInward s n).ports[m] =
    if m = n then (if before.ports[n].maint.loop = .inwardHost then s.ports[n].followLos else s.ports[n])
    else s.ports[m] := by
  unfold State.releaseInward
  split
  · exact changePort_get s n m _
  · by_cases hm : m = n
    · rw [if_pos hm, hm]
    · rw [if_neg hm]

/-- The ports and the list after DEVICE_RESET's connection side: emptied, then LOS_n followed where the loop
was INWARD_HOST (R186). -/
def resetPorts (s : State) : State := (List.finRange 16).foldl (fun t n => s.releaseInward t n) s.emptied

theorem ports_resetPorts (s : State) (m : PortNo) : (resetPorts s).ports[m] =
    if s.ports[m].maint.loop = .inwardHost then s.ports[m].deviceReset.followLos
    else s.ports[m].deviceReset := by
  have h := ports_foldl_all
    (g := fun n p => if s.ports[n].maint.loop = .inwardHost then p.followLos else p)
    (ports_releaseInward s) s.emptied m
  have hempty : s.emptied.ports[m] = s.ports[m].deviceReset := mapPorts_get _ s.ports m
  rw [hempty] at h
  exact h

/-- DEVICE_RESET's step: the ports and tables, and the other port's waiting request aborted. -/
theorem doDeviceReset_eq (s : State) : (doDeviceReset s).2 =
    match s.executor with
    | some x => (resetPorts s).setMport (otherPort x.port) ((resetPorts s).mport (otherPort x.port)).abort
    | none => resetPorts s := by
  unfold doDeviceReset
  split <;> simp only [*] <;> rfl

theorem doDeviceReset_ports (s : State) : (doDeviceReset s).2.ports = (resetPorts s).ports := by
  rw [doDeviceReset_eq]
  split
  · exact ports_setMport ..
  · rfl

theorem sanePorts_doDeviceReset {s : State} (h : SanePorts s) : SanePorts (doDeviceReset s).2 := by
  refine sanePorts_congr (s := resetPorts s) (fun n => ?_) (doDeviceReset_ports s)
  obtain ⟨hin, hout⟩ := sane_deviceReset (h n)
  rw [ports_resetPorts]
  split
  case isTrue => exact hin
  case isFalse hl => exact hout hl

theorem sane_powerOn (los : Bool) : Sane (Port.powerOn los) := by
  refine ⟨?_, ?_, ?_⟩
  all_goals
    constructor <;> simp [Port.powerOn, Port.aligned, Port.forced, SlipBuffer.powerOn, Maint.powerOn,
      OnesPeriod.start, Frame.ones, onesBits]

theorem port_powerOn (s : State) (n : PortNo) : s.powerOn.ports[n] = Port.powerOn s.ports[n].los := by
  have hports : s.powerOn.ports = mapPorts (fun _ p => Port.powerOn p.los) s.ports := by rw [State.powerOn]
  rw [hports, mapPorts_get]

theorem sanePorts_powerOn (s : State) : SanePorts s.powerOn := by
  intro n
  rw [port_powerOn]
  exact sane_powerOn _

theorem ports_withInterval (s : State) (p : Period) : ({ s with interval := p } : State).ports = s.ports :=
  rfl

theorem Alters.keeps_sanePorts {c : Instr} {s t : State} (h : Alters c s t) (hs : SanePorts s) :
    SanePorts t := by
  cases h with
  | none | missWindow | markTimeout | choose | enables | fetch | install => exact hs
  | port n q code hq =>
    exact sanePorts_congr (sanePorts_changePort hs n (hq.keeps_sane (hs n))) (ports_postIf ..)
  | sweep f hf =>
    intro m
    have hports := ports_changePorts s f m
    generalize s.changePorts f = u at hports ⊢
    change Sane u.ports[m]
    rw [hports]
    exact (hf _).keeps_sane (hs m)
  | evaluate turn p =>
    exact sanePorts_congr hs ((ports_withInterval ..).trans (ports_of_lineSide (lineSide_evaluate s turn)))
  | expireWaits turn => exact sanePorts_congr hs (ports_of_lineSide (foldl_keeps (lineSide_expireWait turn) _ s))
  | record act hact id r => exact sanePorts_congr hs (ports_of_lineSide (hact.keeps_lineSide id r s))
  | deviceReset => exact sanePorts_doDeviceReset hs

theorem ports_of_inner {s t : State} (h : inner t = inner s) : t.ports = s.ports := congrArg Prod.fst h

theorem Effect.keeps_sanePorts {c : Instr} {s t : State} (h : Effect c s t) (hs : SanePorts s) :
    SanePorts t := by
  obtain ⟨u, v, hmarks, hchange, hfinish⟩ := h
  have hu : SanePorts u := by
    obtain ⟨-, h⟩ | rfl := hmarks
    · exact marks_preserve (fun _ _ => MarkStep.keeps_sanePorts) h hs
    · exact hs
  exact sanePorts_congr (hchange.keeps_sanePorts hu) (ports_of_inner hfinish.keeps_inner)

/-- Settles O55: every effect keeps every port sane, and RST_ASSERT leaves ports at power-on. -/
theorem stepKeepsPortsSane : Obligations.StepKeepsPortsSane := by
  refine stepKeeps_of_effect (P := State.PortsInv) (fun _ _ h => h) (fun c s t hs h => ?_) fun s _ => ?_
  · exact portsInv_iff.mpr (h.keeps_sanePorts (portsInv_iff.mp hs))
  · exact portsInv_iff.mpr (sanePorts_powerOn s)

end Sys2Proof.Proofs
end

section
/-! PROOFS. The reference monitor stays sane (O56): what each event makes of it, with the alignment of the
port that is followed. -/

namespace Sys2Proof.Proofs

open Sys2Proof Sys2Proof.Machine

/-! ### What the monitor's invariant reads -/

/-- The invariant reads the monitor, and of the ports their alignment. -/
theorem refInv_congr {s t : State} (h : s.RefInv) (hr : t.ref = s.ref)
    (ha : ∀ n : PortNo, s.ports[n].aligned = true → t.ports[n].aligned = true) : t.RefInv := by
  obtain ⟨ok, freewheel, missed, good, followed⟩ := h
  constructor
  case followed =>
    intro n hn hgood
    rw [hr] at hn hgood
    exact ha n (followed n hn hgood)
  all_goals
    rw [hr]
    assumption

/-- A monitor that has lost its source is sane whatever the ports are (R25, R26). -/
theorem refInv_lost {s : State} {r : RefMonitor} {x : RefSelection} (h : s.ref = { r.lose with selection := x }) :
    s.RefInv := by
  constructor <;> simp [h, RefMonitor.lose]

theorem refInv_chosen {s : State} (h : s.RefInv) (x : RefSelection) :
    ({ s with ref := s.ref.choose x } : State).RefInv := by
  by_cases hx : s.ref.selection = x
  · exact refInv_congr h (if_pos hx) fun n hn => hn
  · exact refInv_lost (r := s.ref) (x := x) (if_neg hx)

theorem refInv_missWindow {s : State} (h : s.RefInv) (hok : s.ref.state = .refOk) :
    ({ s with ref := s.ref.missWindow } : State).RefInv := by
  unfold RefMonitor.missWindow
  split
  case isTrue => exact refInv_lost (r := s.ref) (x := s.ref.selection) rfl
  case isFalse hfew =>
    obtain ⟨ok, freewheel, missed, good, followed⟩ := h
    constructor
    case missed => exact Nat.lt_of_not_le hfew
    all_goals simp_all

theorem refInv_markTimeout {s : State} (h : s.RefInv) (hfree : s.ref.state = .freewheel) :
    ({ s with ref := { s.ref with good := 0, lastMark := none } } : State).RefInv := by
  obtain ⟨ok, freewheel, missed, good, followed⟩ := h
  constructor <;> simp_all

/-! ### Ports and the monitor -/

/-- A port's change keeps the monitor sane: the selected port stays ALIGNED or the source is lost. -/
theorem refInv_changePort {s : State} (h : s.RefInv) (n : PortNo) (q : Port) : (s.changePort n q).RefInv := by
  have hr := ref_changePort s n q
  by_cases hlost : s.ports[n].aligned = true ∧ q.aligned = false ∧ s.ref.selection = .port n
  · rw [if_pos hlost] at hr
    exact refInv_lost (r := s.ref) (x := s.ref.selection) hr
  · rw [if_neg hlost] at hr
    obtain ⟨ok, freewheel, missed, good, followed⟩ := h
    constructor
    case followed =>
      intro m hm hgood
      rw [hr] at hm hgood
      have ha := followed m hm hgood
      by_cases hmn : m = n
      · subst hmn
        rw [changePort_same]
        exact eq_true_of_ne_false fun hq => hlost ⟨ha, hq, hm⟩
      · rwa [changePort_other s q hmn]
    all_goals
      rw [hr]
      assumption

theorem refInv_changePorts {s : State} (h : s.RefInv) (f : Port → Port) : (s.changePorts f).RefInv := by
  rw [State.changePorts]
  exact foldl_preserves (P := State.RefInv) (fun _ n hu => refInv_changePort hu n _) _ h

theorem refInv_of_lineSide {s t : State} (h : s.RefInv) (ht : lineSide t = lineSide s) : t.RefInv :=
  refInv_congr h (ref_of_lineSide ht) fun n hn => by rwa [ports_of_lineSide ht]

theorem refInv_doDeviceReset {s : State} (h : s.RefInv) : (doDeviceReset s).2.RefInv := by
  have hempty : s.emptied.RefInv := by
    refine refInv_congr h rfl fun n hn => ?_
    have hport : s.emptied.ports[n] = s.ports[n].deviceReset := mapPorts_get _ s.ports n
    rw [hport]
    exact hn
  have hreset : (resetPorts s).RefInv := by
    refine foldl_preserves (fun u n hu => ?_) _ hempty
    unfold State.releaseInward
    split
    · exact refInv_changePort hu n _
    · exact hu
  rw [doDeviceReset_eq]
  split
  case h_1 x _ =>
    refine refInv_congr hreset (ref_setMport ..) fun n hn => ?_
    rwa [ports_setMport]
  case h_2 => exact hreset

/-! ### Marks and starts -/

/-- A system frame start moves no framer: the monitor's new state is sane after it where it is before it. -/
theorem refInv_startAt {s : State} {moment : Nat} {r : RefMonitor}
    (h : ({ s with ref := { r with point := moment, lastStart := moment } } : State).RefInv) :
    (s.startAt moment r).RefInv := by
  refine refInv_congr h (ref_frameStart _) fun n hn => ?_
  rw [State.startAt, aligned_frameStart]
  exact hn

/-- A monitor in REF_OK that starts a frame, no window missed since a mark or the window of this start open. -/
theorem refInv_started {s : State} (h : s.RefInv) {moment missed : Nat} {window : Bool} (hm : missed ≤ s.ref.missed)
    (hw : s.ref.state = .freewheel → window = false) :
    ({ s with ref := { s.ref with
      missed := missed, windowOpen := window, point := moment, lastStart := moment } } : State).RefInv := by
  obtain ⟨ok, freewheel, hmissed, good, followed⟩ := h
  constructor
  case missed => exact Nat.lt_of_le_of_lt hm hmissed
  case freewheel =>
    intro hf
    obtain ⟨h0, -, -⟩ := freewheel hf
    exact ⟨Nat.le_zero.mp (h0 ▸ hm), hw hf, rfl⟩
  all_goals assumption

theorem refInv_oscillator {s : State} (h : s.RefInv) : s.oscillatorStart.RefInv :=
  refInv_startAt (refInv_started h le_rfl fun hf => by rw [hf]; rfl)

theorem ref_withPorts (s : State) (v : Vector Port 16) : ({ s with ports := v } : State).ref = s.ref := rfl

theorem ref_reacquireAt (s : State) (moment : Nat) : (s.reacquireAt moment).ref = { s.ref with
    state := .refOk, windowOpen := false, missed := 0, good := 0, lastMark := none, point := moment,
    lastStart := moment } :=
  (ref_withPorts ..).trans (ref_frameStart _)

theorem aligned_reacquire (p before : Port) (sent : Nat) : (p.reacquire before sent).aligned = p.aligned := rfl

theorem aligned_reacquireAt (s : State) (moment : Nat) (n : PortNo) :
    (s.reacquireAt moment).ports[n].aligned = s.ports[n].aligned := by
  obtain ⟨t, ht, -, heq⟩ := port_reacquireAt s moment n
  rw [heq, aligned_reacquire, aligned_frameStart, ht]

theorem goodRun_pos (r : RefMonitor) (moment : Nat) : 0 < r.goodRun moment := by
  unfold RefMonitor.goodRun
  repeat' split
  all_goals omega

/-- A mark, where a selected port is ALIGNED. -/
theorem refInv_mark {s : State} (h : s.RefInv) (moment : Nat)
    (hsel : ∀ n, s.ref.selection = .port n → s.ports[n].aligned = true) : (s.mark moment).RefInv := by
  obtain ⟨hok, heq | ⟨-, heq⟩ | ⟨hw, heq⟩⟩ | ⟨hfree, ⟨-, heq⟩ | ⟨hfew, heq⟩⟩ := mark_cases s moment
  · rwa [heq]
  · rw [heq]
    obtain ⟨ok, freewheel, missed, good, followed⟩ := h
    constructor <;> simp_all
  · rw [heq]
    exact refInv_startAt (refInv_started (window := s.ref.windowOpen) h (Nat.zero_le _) fun _ => hw)
  · rw [heq]
    constructor
    case followed =>
      intro n hn _
      rw [aligned_reacquireAt]
      rw [ref_reacquireAt] at hn
      exact hsel n hn
    all_goals simp [ref_reacquireAt]
  · rw [heq]
    have hpos := goodRun_pos s.ref moment
    obtain ⟨ok, freewheel, missed, good, followed⟩ := h
    constructor
    case good => exact ⟨hfew, ⟨fun h0 => absurd h0 hpos.ne', fun h0 => by cases h0⟩⟩
    all_goals simp_all

theorem MarkStep.keeps_refInv {s t : State} (h : MarkStep s t) (hs : s.RefInv) : t.RefInv := by
  cases h with
  | mark m hsel => exact refInv_mark hs m hsel
  | oscillator => exact refInv_oscillator hs

/-! ### Every effect -/

theorem Alters.keeps_refInv {c : Instr} {s t : State} (h : Alters c s t) (hs : s.RefInv) : t.RefInv := by
  cases h with
  | none => exact hs
  | enables | fetch | install => exact refInv_congr hs rfl fun n hn => hn
  | missWindow hok => exact refInv_missWindow hs hok
  | markTimeout hfree => exact refInv_markTimeout hs hfree
  | choose x => exact refInv_chosen hs x
  | port n q code hq =>
    refine refInv_congr (refInv_changePort hs n q) (ref_postIf ..) fun m hm => ?_
    rwa [State.changeCounted, ports_postIf]
  | sweep f hf =>
    have h := refInv_changePorts hs f
    generalize s.changePorts f = u at h ⊢
    exact refInv_congr h rfl fun n hn => hn
  | evaluate turn =>
    have h := refInv_of_lineSide hs (lineSide_evaluate s turn)
    generalize s.evaluate turn = u at h ⊢
    exact refInv_congr h rfl fun n hn => hn
  | expireWaits turn => exact refInv_of_lineSide hs (foldl_keeps (lineSide_expireWait turn) _ s)
  | record act hact id r => exact refInv_of_lineSide hs (hact.keeps_lineSide id r s)
  | deviceReset => exact refInv_doDeviceReset hs

theorem Effect.keeps_refInv {c : Instr} {s t : State} (h : Effect c s t) (hs : s.RefInv) : t.RefInv := by
  obtain ⟨u, v, hmarks, hchange, hfinish⟩ := h
  have hu : u.RefInv := by
    obtain ⟨-, h⟩ | rfl := hmarks
    · exact marks_preserve (fun _ _ => MarkStep.keeps_refInv) h hs
    · exact hs
  have hinner := hfinish.keeps_inner
  obtain ⟨-, hr, -⟩ := inner_eq_iff.mp hinner
  exact refInv_congr (hchange.keeps_refInv hu) hr fun n hn => by rwa [ports_of_inner hinner]

theorem refInv_powerOn (s : State) : s.powerOn.RefInv := by
  have hr : s.powerOn.ref = RefMonitor.powerOn := rfl
  constructor <;> simp [hr, RefMonitor.powerOn]

/-- Settles O56: every event of the monitor, and the changes of the ports it follows. -/
theorem stepKeepsReferenceSane : Obligations.StepKeepsReferenceSane :=
  stepKeeps_of_effect (fun _ _ h => refInv_congr h rfl fun _ hn => hn) (fun _ _ _ hs h => h.keeps_refInv hs)
    fun s _ => refInv_powerOn s

end Sys2Proof.Proofs
end

section
/-! PROOFS. The management ports stay sane (O59): what each transaction, hand-over and placing makes of a
port. -/

namespace Sys2Proof.Proofs

open Sys2Proof Sys2Proof.Machine

/-! ### Frames of a request -/

theorem frameSize_le (declared : Byte) : frameSize declared ≤ 32 := by
  unfold frameSize
  split
  case isTrue h =>
    simp only [Config.maxParams] at h
    omega
  case isFalse => decide

/-- A stored frame is 32 bytes at most. -/
theorem length_storeFrame (bytes : List Byte) : (storeFrame bytes).length ≤ 32 := by
  unfold storeFrame
  split
  case h_1 declared _ => exact (List.length_take_le ..).trans (frameSize_le declared)
  case h_2 hshort =>
    match bytes with
    | [] | [_] | [_, _] => simp
    | _ :: _ :: _ :: _ => exact absurd rfl (hshort _ _ _ _)

/-! ### One port through a transaction -/

/-- What a transaction leaves of a port: it is sane, and EXECUTING where it was. -/
def Serves (x y : MPort) : Prop := y.Inv ∧ (y.txn = .executing ↔ x.txn = .executing)

/-- A port whose bus is free is not LOADING. -/
theorem not_loading {x : MPort} (h : x.Inv) (hfree : x.bus.isFree = true) : x.txn ≠ .loading := by
  intro hl
  obtain ⟨shift, hbus⟩ := h.loading.mp hl
  rw [hbus] at hfree
  cases hfree

theorem takes_iff {t : TxnState} : t.takes = true ↔ t = .idle ∨ t = .answered := by
  cases t <;> decide

theorem not_takes {t : TxnState} : t.takes = false ↔ t = .loading ∨ t = .waiting ∨ t = .executing := by
  cases t <;> decide

theorem serves_write {x : MPort} (h : x.Inv) (hfree : x.bus.isFree = true) (bits : List Bool)
    (sent : List Byte) : Serves x { x.write bits with sent := sent } := by
  have hloading := not_loading h hfree
  have hshift := length_unfinishedBits bits
  have hstored := length_storeFrame (wholeBytes bits)
  obtain ⟨response, request, loading, reading, shift, hsent⟩ := h
  unfold MPort.write
  split
  case isTrue ht =>
    obtain ht | ht := takes_iff.mp ht <;> refine ⟨?_, by simp [ht]⟩ <;> constructor <;> simp_all
  case isFalse ht =>
    refine ⟨?_, Iff.rfl⟩
    constructor <;> simp_all

theorem serves_writeMore {x : MPort} (h : x.Inv) (bits : List Bool) {taken : Bool} {rest : List Bool}
    (hbus : x.bus = .writing taken rest) (sent : List Byte) :
    Serves x { x.writeMore bits with sent := sent } := by
  have hshift := length_unfinishedBits (rest ++ bits)
  have hstored := length_storeFrame (x.request ++ wholeBytes (rest ++ bits))
  obtain ⟨response, request, loading, reading, shift, hsent⟩ := h
  cases taken with
  | true =>
    have htxn : x.txn = .loading := loading.mpr ⟨rest, hbus⟩
    rw [writeMore_taken hbus]
    refine ⟨?_, Iff.rfl⟩
    constructor <;> simp_all
  | false =>
    rw [writeMore_refused hbus]
    refine ⟨?_, Iff.rfl⟩
    constructor <;> simp_all

theorem serves_endWrite {x : MPort} (h : x.Inv) : Serves x x.endWrite := by
  have hsame : Serves x x := ⟨h, Iff.rfl⟩
  obtain ⟨response, request, loading, reading, shift, hsent⟩ := h
  unfold MPort.endWrite
  split
  case h_1 rest hbus =>
    have htxn : x.txn = .loading := loading.mpr ⟨rest, hbus⟩
    split
    · refine ⟨?_, by simp [htxn]⟩
      constructor <;> simp_all
    · refine ⟨?_, by simp [htxn]⟩
      constructor <;> simp_all
  case h_2 | h_3 =>
    refine ⟨?_, Iff.rfl⟩
    constructor <;> simp_all
  all_goals exact hsame

theorem serves_read {x : MPort} (h : x.Inv) (hfree : x.bus.isFree = true) (count : Nat) :
    Serves x (x.read count) := by
  have hloading := not_loading h hfree
  obtain ⟨response, request, loading, reading, shift, hsent⟩ := h
  refine ⟨?_, Iff.rfl⟩
  constructor <;> simp_all [MPort.read, bytesBegun]

theorem serves_readMore {x : MPort} (h : x.Inv) (count : Nat) : Serves x (x.readMore count) := by
  have hsame : Serves x x := ⟨h, Iff.rfl⟩
  have hlength := fun live k (hb : x.bus = .reading live k) =>
    length_sent_readMore hb (h.sent k (.inl ⟨live, hb⟩)) count
  obtain ⟨response, request, loading, reading, shift, hsent⟩ := h
  unfold MPort.readMore at hlength ⊢
  split
  case h_1 live k hbus =>
    have hsent' := hlength live k hbus
    rw [hbus] at hsent'
    refine ⟨?_, Iff.rfl⟩
    constructor
    case sent =>
      rintro j (⟨l, hj⟩ | hj)
      · cases hj
        exact hsent'
      · cases hj
    all_goals simp_all
  all_goals exact hsame

theorem serves_endRead {x : MPort} (h : x.Inv) : Serves x x.endRead := by
  have hsame : Serves x x := ⟨h, Iff.rfl⟩
  obtain ⟨response, request, loading, reading, shift, hsent⟩ := h
  unfold MPort.endRead
  split
  case h_1 live count hbus =>
    split
    case isTrue hall =>
      obtain ⟨rfl, -⟩ := hall
      have htxn := reading count hbus
      refine ⟨?_, by simp [htxn]⟩
      constructor <;> simp_all
    case isFalse =>
      refine ⟨?_, Iff.rfl⟩
      constructor <;> simp_all
  case h_2 | h_3 =>
    refine ⟨?_, Iff.rfl⟩
    constructor <;> simp_all
  all_goals exact hsame

theorem serves_quiet {x : MPort} (h : x.Inv) (hfree : x.bus.isFree = true) : Serves x x.quiet := by
  have hloading := not_loading h hfree
  obtain ⟨response, request, loading, reading, shift, hsent⟩ := h
  refine ⟨?_, Iff.rfl⟩
  constructor <;> simp_all [MPort.quiet]

theorem serves_status {x : MPort} (h : x.Inv) (hfree : x.bus.isFree = true) (refused : Bool) {count : Nat}
    {sent : List Byte} (hsent : sent.length = (count + 7) / 8) :
    Serves x { x with refused := refused, bus := .status count, sent := sent } := by
  have hloading := not_loading h hfree
  obtain ⟨response, request, loading, reading, shift, -⟩ := h
  refine ⟨?_, Iff.rfl⟩
  constructor <;> simp_all

/-- A port through DEVICE_RESET's abort (R183). -/
theorem serves_abort {x : MPort} (h : x.Inv) : Serves x x.abort := by
  have hsame : Serves x x := ⟨h, Iff.rfl⟩
  obtain ⟨response, request, loading, reading, shift, hsent⟩ := h
  unfold MPort.abort
  split
  case isTrue ht =>
    refine ⟨?_, by simp [ht]⟩
    constructor
    case sent => exact hsent
    all_goals simp_all [responseFrame, Answer.bare]
  case isFalse => exact hsame

/-! ### What transactions write -/

theorem setMport_setMport (s : State) (p : MPortId) (x y : MPort) :
    (s.setMport p x).setMport p y = s.setMport p y := by cases p <;> rfl

theorem setMport_self (s : State) (p : MPortId) : s.setMport p (s.mport p) = s := by cases p <;> rfl

/-- Status copies change what is sent. -/
theorem statusCopies_eq (s : State) (p : MPortId) (count : Nat) : s.statusCopies p count =
    s.setMport p { s.mport p with sent := (s.mport p).sent ++ List.replicate count (s.statusByte p) } := rfl

/-- Status copies that may clear REFUSED: their count of bytes is sent. -/
theorem statusBits_eq (s : State) (p : MPortId) (clears : Bool) (had more : Nat) :
    ∃ refused sent, sent.length = bytesBegun had more ∧ s.statusBits p clears had more = s.setMport p
      { s.mport p with
        refused := refused, bus := .status (had + more), sent := (s.mport p).sent ++ sent } := by
  have hcopies : ∀ (x : MPort) (k : Nat), (s.setMport p x).statusCopies p k = s.setMport p
      { x with sent := x.sent ++ List.replicate k ((s.setMport p x).statusByte p) } := by
    intro x k
    rw [statusCopies_eq, mport_setMport_same, setMport_setMport]
  simp only [State.statusBits]
  split
  case isTrue =>
    cases bytesBegun had more with
    | zero => exact ⟨(s.mport p).refused, [], rfl, by rw [List.append_nil]; rfl⟩
    | succ k =>
      refine ⟨false, ?_, ?_, ?_⟩
      rotate_left 2
      · rw [State.statusRead, hcopies, mport_setMport_same, setMport_setMport, hcopies, List.append_assoc]
      · rw [List.length_append, List.length_replicate, List.length_replicate, Nat.add_comm]
  case isFalse => exact ⟨(s.mport p).refused, _, List.length_replicate .., hcopies _ _⟩

/-! ### The invariant -/

theorem inv_mport {s : State} (h : s.BusInv) (p : MPortId) : (s.mport p).Inv := by
  cases p with
  | m => exact h.portM
  | s => exact h.portS

/-- While RST is high, a port that a transaction has served. -/
theorem busInv_setMport {s : State} (h : s.BusInv) (hr : s.rst = false) (p : MPortId) {y : MPort}
    (hy : Serves (s.mport p) y) : (s.setMport p y).BusInv := by
  have hM := h.portM
  have hS := h.portS
  obtain ⟨hinv, hexec⟩ := hy
  have hports : ∀ o, ((s.setMport p y).mport o).Inv ∧
      (((s.setMport p y).mport o).txn = .executing ↔ (s.mport o).txn = .executing) := by
    intro o
    by_cases ho : o = p
    · subst ho
      rw [mport_setMport_same]
      exact ⟨hinv, hexec⟩
    · rw [mport_setMport_ne s y ho]
      exact ⟨inv_mport h o, Iff.rfl⟩
  constructor
  case portM => exact (hports .m).1
  case portS => exact (hports .s).1
  case executing => intro o; rw [(hports o).2, executor_setMport]; exact h.executing o
  case execution => rw [executor_setMport]; exact h.execution
  case held => intro hrst; rw [rst_setMport, hr] at hrst; cases hrst

/-- The acknowledges and the last operation are read while RST is low alone. -/
theorem busInv_withAcks {s : State} (h : s.BusInv) (hr : s.rst = false) (acks : Nat) (op : LastOp) :
    ({ s with acks := acks, lastOp := op } : State).BusInv :=
  ⟨h.portM, h.portS, h.executing, h.execution, fun hrst => absurd (hr.symm.trans hrst) Bool.false_ne_true⟩

theorem busInv_writeOut {s : State} {p : MPortId} {x : MPort} {had more : Nat} (h : s.BusInv) (hr : s.rst = false)
    (hx : ∀ sent, Serves (s.mport p) { x with sent := sent }) : ((s.setMport p x).writeOut p had more).BusInv := by
  cases p with
  | m => exact busInv_setMport h hr .m (hx _)
  | s => exact busInv_withAcks (busInv_setMport h hr .s (hx x.sent)) hr _ _

theorem busInv_writeOn {s : State} (h : s.BusInv) (p : MPortId) (hr : s.rst = false)
    (hfree : (s.mport p).bus.isFree = true) (bits : List Bool) : (s.writeOn p bits).BusInv := by
  have hout := busInv_writeOut (had := 0) (more := bits.length) h hr (serves_write (inv_mport h p) hfree bits)
  cases p with
  | m => exact hout
  | s => exact busInv_withAcks hout hr _ _

theorem busInv_writeOnMore {s : State} (h : s.BusInv) (p : MPortId) (hr : s.rst = false) (bits : List Bool) :
    (s.writeOnMore p bits).BusInv := by
  unfold State.writeOnMore
  split
  case h_1 taken shift hbus => exact busInv_writeOut h hr (serves_writeMore (inv_mport h p) bits hbus)
  all_goals exact h

theorem busFree_iff {s : State} {p : MPortId} :
    s.busFree p = true ↔ s.rst = false ∧ (s.mport p).bus.isFree = true := by
  simp [State.busFree]

theorem busInv_addressed {s : State} (h : s.BusInv) (hr : s.rst = false) (a : BitVec 7) {act : State → State}
    (hact : ∀ u, u.BusInv → u.rst = false → u.portS.bus.isFree = true → (act u).BusInv) :
    (s.addressed a act).BusInv := by
  cases hf : s.busFree .s with
  | false => rwa [addressed_busy hf]
  | true =>
    have hfree : s.portS.bus.isFree = true := (busFree_iff.mp hf).2
    by_cases ha : a = s.address
    · subst ha
      rw [addressed_own hf]
      exact hact _ (busInv_withAcks h hr 1 s.lastOp) hr hfree
    · rw [addressed_other hf ha]
      exact busInv_withAcks (busInv_setMport h hr .s (serves_quiet h.portS hfree)) hr 0 s.lastOp

theorem busInv_writePart {s : State} (h : s.BusInv) (hr : s.rst = false) (via : Via)
    (part : BusPart (List Bool)) : (s.writePart via part).BusInv := by
  unfold State.writePart
  split
  case h_1 bits =>
    split
    case isTrue hf => exact busInv_writeOn h .m hr (busFree_iff.mp hf).2 bits
    case isFalse => exact h
  case h_2 bits => exact busInv_writeOnMore h .m hr bits
  case h_3 a bits => exact busInv_addressed h hr a fun u hu hru hfree => busInv_writeOn hu .s hru hfree bits
  case h_4 a bits =>
    split
    · exact busInv_writeOnMore h .s hr bits
    · exact h

theorem busInv_readPart {s : State} (h : s.BusInv) (hr : s.rst = false) (p : MPortId) (part : BusPart Nat) :
    (s.readPart p part).BusInv := by
  unfold State.readPart
  split
  case h_1 count =>
    split
    case isTrue hf => exact busInv_setMport h hr p (serves_read (inv_mport h p) (busFree_iff.mp hf).2 count)
    case isFalse => exact h
  case h_2 count => exact busInv_setMport h hr p (serves_readMore (inv_mport h p) count)

theorem bytesBegun_done (had more : Nat) : (had + 7) / 8 + bytesBegun had more = (had + more + 7) / 8 := by
  simp only [bytesBegun]
  omega

theorem busInv_statusBits {s : State} (h : s.BusInv) (hr : s.rst = false) (p : MPortId) (clears : Bool)
    {had : Nat} (more : Nat) (hfree : (s.mport p).bus.isFree = true)
    (hsent : (s.mport p).sent.length = (had + 7) / 8) : (s.statusBits p clears had more).BusInv := by
  obtain ⟨refused, sent, hlength, heq⟩ := statusBits_eq s p clears had more
  rw [heq]
  refine busInv_setMport h hr p (serves_status (inv_mport h p) hfree refused ?_)
  rw [List.length_append, hsent, hlength, bytesBegun_done]

theorem busInv_statusPart {s : State} (h : s.BusInv) (hr : s.rst = false) (p : MPortId) (clears : Bool)
    (part : BusPart Nat) : (s.statusPart p clears part).BusInv := by
  unfold State.statusPart
  split
  case h_1 count =>
    split
    case isTrue hf =>
      have hquiet := busInv_setMport h hr p (serves_quiet (inv_mport h p) (busFree_iff.mp hf).2)
      refine busInv_statusBits hquiet ((rst_setMport ..).trans hr) p clears count ?_ ?_
      · rw [mport_setMport_same]; rfl
      · rw [mport_setMport_same]; rfl
    case isFalse => exact h
  case h_2 count =>
    split
    case h_1 k hbus =>
      exact busInv_statusBits h hr p clears count (by rw [hbus]; rfl) ((inv_mport h p).sent k (.inr hbus))
    all_goals exact h

theorem busInv_readS {s : State} (h : s.BusInv) (hr : s.rst = false) (part : BusPart Nat) :
    (s.readS part).BusInv := by
  unfold State.readS
  split
  · exact busInv_readPart h hr .s part
  · exact busInv_statusPart h hr .s true part
  · exact busInv_statusPart h hr .s false part

theorem busInv_i2cRead {s : State} (h : s.BusInv) (hr : s.rst = false) (a : BitVec 7) (part : BusPart Nat) :
    (s.i2cRead a part).BusInv := by
  unfold State.i2cRead
  split
  case h_1 count => exact busInv_addressed h hr a fun u hu hru _ => busInv_readS hu hru _
  case h_2 count =>
    split
    · exact busInv_readS h hr _
    · exact h

theorem busInv_i2cWrite {s : State} (h : s.BusInv) (hr : s.rst = false) (hfree : s.portS.bus.isFree = true)
    (data : List Byte) : (s.i2cWrite data).BusInv := by
  have hquiet := busInv_setMport h hr .s (serves_quiet h.portS hfree)
  unfold State.i2cWrite
  split
  case h_1 => exact hquiet
  case h_2 op rest =>
    split
    · exact busInv_writeOn h .s hr hfree _
    · exact busInv_withAcks hquiet hr _ _

/-! ### The executor -/

theorem nextPort_waiting {s : State} {p : MPortId} (h : s.nextPort = some p) : (s.mport p).txn = .waiting := by
  unfold State.nextPort at h
  split at h
  case isTrue hm =>
    split at h
    case isTrue hs =>
      cases p with
      | m => exact hm
      | s => exact hs
    case isFalse => cases h; exact hm
  case isFalse =>
    split at h
    case isTrue hs => cases h; exact hs
    case isFalse => cases h

/-- A waiting request handed to the free executor (R178, R180). -/
theorem busInv_handOn {s : State} (h : s.BusInv) {p : MPortId} (hx : s.executor = none)
    (hp : s.nextPort = some p) : (s.handOn p).BusInv := by
  have hwaiting := nextPort_waiting hp
  have hother : ∀ o, (s.mport o).txn ≠ .executing := by
    intro o ho
    obtain ⟨x, hx', -⟩ := (h.executing o).mp ho
    rw [hx] at hx'
    cases hx'
  have hinv : ({ s.mport p with txn := .executing, request := [] } : MPort).Inv := by
    obtain ⟨response, request, loading, reading, shift, sent⟩ := inv_mport h p
    constructor
    case sent => exact sent
    all_goals simp_all
  have hport : ∀ o, (s.handOn p).mport o =
      if o = p then { s.mport p with txn := .executing, request := [] } else s.mport o := by
    intro o
    split
    case isTrue ho => subst ho; exact mport_setMport_same s o _
    case isFalse ho => exact mport_setMport_ne s _ ho
  have hports : ∀ o, ((s.handOn p).mport o).Inv := by
    intro o
    rw [hport]
    split
    · exact hinv
    · exact inv_mport h o
  have hexecutor : (s.handOn p).executor = some (execution p (s.mport p).request) := rfl
  constructor
  case portM => exact hports .m
  case portS => exact hports .s
  case executing =>
    intro o
    rw [hport, hexecutor]
    by_cases ho : o = p
    · subst ho
      simp [execution]
    · simp [if_neg ho, hother o, execution, Ne.symm ho]
  case execution =>
    intro x hx'
    rw [hexecutor] at hx'
    cases hx'
    cases hreq : parseFrame (s.mport p).request <;> simp [execution, hreq, Answer.bare]
  case held =>
    intro hrst
    obtain ⟨hM, hS, -⟩ := h.held ((rst_setMport ..).symm.trans hrst)
    cases p with
    | m => rw [State.mport, hM] at hwaiting; cases hwaiting
    | s => rw [State.mport, hS] at hwaiting; cases hwaiting

/-- The answer placed as the response (R181). -/
theorem busInv_place {s : State} (h : s.BusInv) {x : Execution} {a : Answer} (hx : s.executor = some x)
    (ha : x.answer = some a) : (s.place x a).BusInv := by
  have hlength := (h.execution x hx).2 a ha
  have hexec : (s.mport x.port).txn = .executing := (h.executing x.port).mpr ⟨x, hx, rfl⟩
  have hinv : ({ s.mport x.port with txn := .answered, response := responseFrame x.code x.tag a } : MPort).Inv := by
    obtain ⟨response, request, loading, reading, shift, sent⟩ := inv_mport h x.port
    constructor
    case response => simp [responseFrame]; omega
    case sent => exact sent
    all_goals simp_all
  have hport : ∀ o, (s.place x a).mport o = if o = x.port then
      { s.mport x.port with txn := .answered, response := responseFrame x.code x.tag a } else s.mport o := by
    intro o
    split
    case isTrue ho => subst ho; exact mport_setMport_same s _ _
    case isFalse ho => exact mport_setMport_ne s _ ho
  have hports : ∀ o, ((s.place x a).mport o).Inv := by
    intro o
    rw [hport]
    split
    · exact hinv
    · exact inv_mport h o
  have hexecutor : (s.place x a).executor = none := rfl
  constructor
  case portM => exact hports .m
  case portS => exact hports .s
  case executing =>
    intro o
    rw [hport, hexecutor]
    by_cases ho : o = x.port
    · simp [ho]
    · have hfree : (s.mport o).txn ≠ .executing := by
        intro ho'
        obtain ⟨y, hy, hyo⟩ := (h.executing o).mp ho'
        rw [hx] at hy
        cases hy
        exact ho hyo.symm
      simp [if_neg ho, hfree]
  case execution => intro y hy; rw [hexecutor] at hy; cases hy
  case held =>
    intro hrst
    obtain ⟨-, -, -, -, hnone⟩ := h.held ((rst_setMport ..).symm.trans hrst)
    rw [hx] at hnone
    cases hnone

theorem busInv_answering {s : State} (h : s.BusInv) {x : Execution} {a : Answer} (hx : s.executor = some x)
    (ha : a.data.length ≤ 44) : (s.answering x a).BusInv := by
  constructor
  case portM => exact h.portM
  case portS => exact h.portS
  case executing =>
    intro o
    refine (h.executing o).trans ?_
    simp [hx]
  case execution =>
    intro y hy
    rw [executor_answering] at hy
    cases hy
    exact ⟨fun h => (by cases h), fun b hb => by cases hb; exact ha⟩
  case held =>
    intro hrst
    obtain ⟨-, -, -, -, hnone⟩ := h.held hrst
    rw [hx] at hnone
    cases hnone

/-! ### RST -/

theorem inv_powerOn : MPort.powerOn.Inv := by
  constructor <;> simp [MPort.powerOn]

/-- RST released: the ports stand at power-on, a running transaction missed (R184). -/
theorem busInv_released {s : State} (h : s.BusInv) (hr : s.rst = true) (r : Release) :
    (s.released r).BusInv := by
  obtain ⟨hM, hS, hacks, hop, hx⟩ := h.held hr
  have hmissed : ∀ b, ({ MPort.powerOn with bus := busAtRelease b } : MPort).Inv := by
    intro b
    cases b <;> constructor <;> simp [MPort.powerOn, busAtRelease]
  constructor
  case portM => have hx := hmissed r.busM; rwa [← hM] at hx
  case portS => have hx := hmissed r.busS; rwa [← hS] at hx
  case executing =>
    intro p
    cases p <;> simp [State.mport, State.released, hM, hS, hx, MPort.powerOn]
  case execution => exact h.execution
  case held => intro hrst; cases hrst

theorem busInv_powerOn (s : State) : s.powerOn.BusInv := by
  have hports : ∀ p, s.powerOn.mport p = MPort.powerOn := fun p => by cases p <;> rfl
  have hx : s.powerOn.executor = none := rfl
  constructor
  case portM => exact inv_powerOn
  case portS => exact inv_powerOn
  case executing => intro p; rw [hports, hx]; simp [MPort.powerOn]
  case execution => intro x h; rw [hx] at h; cases h
  case held => exact fun _ => ⟨rfl, rfl, rfl, rfl, rfl⟩

/-- While RST is low no transaction changes anything. -/
theorem low_unchanged {s : State} (h : s.BusInv) (hr : s.rst = true) {t : State} (hmove : BusMove s t) :
    t = s ∨ ∃ r, t = s.released r := by
  obtain ⟨hM, hS, -, -, hx⟩ := h.held hr
  have hbus : ∀ p, s.busFree p = false := fun p => by simp [State.busFree, hr]
  have hport : ∀ p, s.mport p = MPort.powerOn := fun p => by cases p <;> assumption
  have hwrite : ∀ p bits, s.writeOnMore p bits = s := by
    intro p bits
    simp only [State.writeOnMore, hport, MPort.powerOn]
  have hread : ∀ p part, s.readPart p part = s := by
    intro p part
    cases part with
    | begins count => simp [State.readPart, hbus]
    | further count => exact (congrArg (s.setMport p) (by rw [hport]; rfl)).trans (setMport_self s p)
  have hstatus : ∀ p clears part, s.statusPart p clears part = s := by
    intro p clears part
    cases part with
    | begins count => simp [State.statusPart, hbus]
    | further count => simp only [State.statusPart, hport, MPort.powerOn]
  have hreadS : ∀ part, s.readS part = s := by
    intro part
    unfold State.readS
    split <;> simp only [hread, hstatus]
  cases hmove with
  | write via part =>
    refine .inl ?_
    unfold State.writePart
    split <;> simp [hbus, hwrite, addressed_busy (hbus .s)]
  | endWrite p => exact .inl ((congrArg (s.setMport p) (by rw [hport]; rfl)).trans (setMport_self s p))
  | read p part => exact .inl (hread p part)
  | endRead p => exact .inl ((congrArg (s.setMport p) (by rw [hport]; rfl)).trans (setMport_self s p))
  | status p clears part => exact .inl (hstatus p clears part)
  | i2cRead a part =>
    refine .inl ?_
    unfold State.i2cRead
    split <;> simp [hreadS, addressed_busy (hbus .s)]
  | i2cWrite a data => exact .inl (addressed_busy (hbus .s))
  | handOn p hx hp =>
    have hw := nextPort_waiting hp
    rw [hport] at hw
    cases hw
  | place x a hx' ha => rw [hx] at hx'; cases hx'
  | release r hr => exact .inr ⟨r, rfl⟩

/-! ### Every effect -/

theorem BusMove.keeps_busInv {s t : State} (hmove : BusMove s t) (h : s.BusInv) : t.BusInv := by
  cases hr : s.rst with
  | true =>
    obtain rfl | ⟨r, rfl⟩ := low_unchanged h hr hmove
    · exact h
    · exact busInv_released h hr r
  | false =>
    cases hmove with
    | write via part => exact busInv_writePart h hr via part
    | endWrite p => exact busInv_setMport h hr p (serves_endWrite (inv_mport h p))
    | read p part => exact busInv_readPart h hr p part
    | endRead p => exact busInv_setMport h hr p (serves_endRead (inv_mport h p))
    | status p clears part => exact busInv_statusPart h hr p clears part
    | i2cRead a part => exact busInv_i2cRead h hr a part
    | i2cWrite a data => exact busInv_addressed h hr a fun u hu hru hfree => busInv_i2cWrite hu hru hfree data
    | handOn p hx hp => exact busInv_handOn h hx hp
    | place x a hx ha => exact busInv_place h hx ha
    | release r hrst => rw [hr] at hrst; cases hrst

/-- The invariant reads the outer side alone. -/
theorem busInv_of_outer {s t : State} (h : s.BusInv) (ht : outer t = outer s) : t.BusInv := by
  obtain ⟨hrst, -, hM, hS, hop, hacks, hx, -, -⟩ := outer_eq_iff.mp ht
  have hports : ∀ p, t.mport p = s.mport p := fun p => by cases p <;> assumption
  obtain ⟨portM, portS, executing, execution, held⟩ := h
  constructor
  case portM => rwa [hM]
  case portS => rwa [hS]
  case executing => intro p; rw [hports, hx]; exact executing p
  case execution => rwa [hx]
  case held => rwa [hrst, hM, hS, hacks, hop, hx]

theorem outer_releaseInward (before s : State) (n : PortNo) :
    outer (before.releaseInward s n) = outer s := by
  unfold State.releaseInward
  split
  · exact outer_changePort s n _
  · rfl

theorem busInv_doDeviceReset {s : State} (h : s.BusInv) : (doDeviceReset s).2.BusInv := by
  have houter : outer (resetPorts s) = outer s :=
    (foldl_keeps (g := outer) (outer_releaseInward s) (List.finRange 16) s.emptied)
  have hreset := busInv_of_outer h houter
  rw [doDeviceReset_eq]
  split
  case h_1 x hx =>
    have hrst : (resetPorts s).rst = false := by
      refine eq_false_of_ne_true fun hlow => ?_
      obtain ⟨-, -, -, -, hnone⟩ := hreset.held hlow
      rw [executor_of_outer houter, hx] at hnone
      cases hnone
    exact busInv_setMport hreset hrst _ (serves_abort (inv_mport hreset _))
  case h_2 => exact hreset

theorem Alters.keeps_busInv {c : Instr} {s t : State} (h : Alters c s t) (hs : s.BusInv) : t.BusInv := by
  obtain h | ⟨-, rfl⟩ := h.keeps_outer_or_reset
  · exact busInv_of_outer hs h
  · exact busInv_doDeviceReset hs

theorem Finish.keeps_busInv {c : Instr} {s t : State} (h : Finish c s t) (hs : s.BusInv) : t.BusInv := by
  cases h with
  | none => exact hs
  | answer hc x a hx ha => exact busInv_answering hs hx.1 ha
  | bus _ h => exact h.keeps_busInv hs

theorem Effect.keeps_busInv {c : Instr} {s t : State} (h : Effect c s t) (hs : s.BusInv) : t.BusInv := by
  obtain ⟨u, v, hmarks, hchange, hfinish⟩ := h
  have hu : u.BusInv := by
    obtain ⟨-, h⟩ | rfl := hmarks
    · exact busInv_of_outer hs (keeps_of_marks (fun _ _ => outer_markStep) h)
    · exact hs
  exact hfinish.keeps_busInv (hchange.keeps_busInv hu)

/-- Settles O59: every transaction, hand-over and answer, and RST. -/
theorem stepKeepsBusSane : Obligations.StepKeepsBusSane :=
  stepKeeps_of_effect (fun _ _ h => ⟨h.portM, h.portS, h.executing, h.execution, h.held⟩)
    (fun _ _ _ hs h => h.keeps_busInv hs) fun s _ => busInv_powerOn s

end Sys2Proof.Proofs
end

section
/-! PROOFS. What happens to the tables and the attention list, said once: the moves that a command's effect
is made of on this side. Every statement about the tables that all steps keep goes through
`Effect.tableMoves`. -/

namespace Sys2Proof.Proofs

open Sys2Proof Sys2Proof.Machine

/-! ### The moves -/

/-- Records, slot map, selections, contexts and the attention list. -/
def tableSide (s : State) := (s.records, s.slotMap, s.selections, s.contexts, s.attention)

theorem tableSide_eq_iff {s t : State} : tableSide t = tableSide s ↔
    t.records = s.records ∧ t.slotMap = s.slotMap ∧ t.selections = s.selections ∧
      t.contexts = s.contexts ∧ t.attention = s.attention := by
  simp only [tableSide, Prod.mk.injEq]

/-- A record's new fields where its triples and its context stand. -/
structure Rewrites (r r' : Record) : Prop where
  inv : r.Inv → r'.Inv
  triples : r'.triples = r.triples
  context : r'.context = r.context
  staged : r'.state = .staged → r.state = .staged

/-- The kinds of change that a record's entry holds (R162). -/
def ofRecord : Change → Bool
  | .health | .select | .state => true
  | .portDefect | .farAlarm | .code | .loop => false

/-- What can be posted: a record's kinds for a record that is there, and a port's for a port. -/
def Postable (s : State) (c : Change) : Subject → Prop
  | .record id => ofRecord c = true ∧ ∃ r, s.records.get id = some r
  | .port _ => ofRecord c = false

/-- The tables after a record's frame start, its postings apart (R97, R99). -/
def installed (s : State) (id : Nat) (r : Record) : State :=
  { ((s.setRecord id r.completed).releaseTriples r.goingTriples) with
    selections := writeRecord r.completed ((s.contextOf r).map Prod.snd)
      (setSelections s.selections .idle (r.goingDests.flatMap fun d => d.dest.txKeys r.width)) }

theorem installAtFrame_eq (s : State) (id : Nat) (r : Record) :
    s.installAtFrame id r = (installed s id r).postIf (r.state == .staged) (.record id) .state := rfl

/-- One change of the tables or the list. -/
inductive TableMove (s : State) : State → Prop
  | frame (t : State) (h : tableSide t = tableSide s) : TableMove s t
  | rewrite (id : Nat) (r r' : Record) (hr : s.records.get id = some r) (h : Rewrites r r') :
      TableMove s (s.setRecord id r')
  | commit (k : Nat) (c c' : Context) (hk : s.contexts.get k = some c) (hinv : c.Inv → c'.Inv)
      (hrecord : c'.record = c.record) : TableMove s { s with contexts := s.contexts.put k c' }
  | tick (f : Nat → Context → Context) (hinv : ∀ k c, c.Inv → (f k c).Inv)
      (hrecord : ∀ k c, (f k c).record = c.record) :
      TableMove s { s with contexts := s.contexts.mapValues f }
  | post (x : Subject) (c : Change) (h : Postable s c x) : TableMove s (s.post x c)
  | extend (id : Nat) (r r' : Record) (ts : List Triple) (hr : s.records.get id = some r)
      (hinv : r.Inv → r'.Inv) (htriples : r'.triples.Perm (r.triples ++ ts))
      (hfree : ∀ u ∈ ts, s.slotMap.get u.key = none) (hcontext : r'.context = r.context)
      (hstate : r'.state = r.state) : TableMove s ((s.setRecord id r').reserve ts id)
  | bind (id k : Nat) (r r' : Record) (ts : List Triple) (c : Context) (hr : s.records.get id = some r)
      (hinv : r.Inv → r'.Inv) (htriples : r.Inv → r'.triples = r.triples ++ ts)
      (hfree : ∀ u ∈ ts, s.slotMap.get u.key = none) (hunbound : r.context = none)
      (hcontext : r'.context = some k) (hstate : r'.state = r.state)
      (hk : s.contexts.lowestFree Config.contexts = some k) (hc : c.Inv) (hrecord : c.record = id) :
      TableMove s { ((s.setRecord id r').reserve ts id) with contexts := s.contexts.put k c }
  | unbind (id k : Nat) (r r' : Record) (hr : s.records.get id = some r) (hk : r.context = some k)
      (hinv : r.Inv → r'.Inv) (htriples : r.Inv → r'.triples = r.triples) (hcontext : r'.context = none)
      (hstate : r'.state = r.state) : TableMove s ((s.unbind (some k)).setRecord id r')
  | create (id : Nat) (q : ConnectReq) (p : ConnectPlan) (hp : connectPlan q = some p)
      (hfree : ∀ u ∈ (newRecord q p).triples, s.slotMap.get u.key = none)
      (hid : s.records.lowestFree Config.records = some id) : TableMove s (s.install id q p)
  | discard (id : Nat) (r : Record) (hr : s.records.get id = some r) (hstate : r.state = .staged) :
      TableMove s (s.freeRecord id r)
  | retireFrame (id : Nat) (r : Record) (hr : s.records.get id = some r) (hstate : r.state = .retiring) :
      TableMove s (s.retireAtFrame id r)
  | installFrame (id : Nat) (r : Record) (hr : s.records.get id = some r) (hstate : r.state ≠ .retiring) :
      TableMove s (installed s id r)
  | fetch (e : Entry) (rest : List Entry) (h : s.attention = e :: rest) :
      TableMove s { s with attention := rest }
  | clear (t : State) (hrecords : t.records = []) (hmap : t.slotMap = []) (hselections : t.selections = [])
      (hcontexts : t.contexts = []) (hlist : t.attention = []) : TableMove s t

/-- Any number of them. -/
abbrev TableMoves := Relation.ReflTransGen TableMove

theorem TableMoves.of_frame {s t : State} (h : tableSide t = tableSide s) : TableMoves s t :=
  .single (.frame t h)

/-- What every move keeps, any number of them keep. -/
theorem TableMoves.preserve {P : State → Prop} (hP : ∀ s t, TableMove s t → P s → P t) {s t : State}
    (h : TableMoves s t) (hs : P s) : P t := by
  induction h with
  | refl => exact hs
  | tail _ hstep ih => exact hP _ _ hstep ih

/-- Steps over a list that are made of moves are moves. -/
theorem tableMoves_foldl {α : Type} {f : State → α → State} (hf : ∀ s a, TableMoves s (f s a)) (l : List α)
    (s : State) : TableMoves s (l.foldl f s) := by
  induction l generalizing s with
  | nil => exact .refl
  | cons a l ih => exact (hf s a).trans (ih _)

theorem tableMoves_postIf {s : State} (b : Bool) {x : Subject} {c : Change} (h : Postable s c x) :
    TableMoves s (s.postIf b x c) := by
  cases b with
  | false => exact .refl
  | true => exact .single (.post x c h)

/-! ### Contexts -/

/-- A request that comes into force with the selection it makes (R130). -/
theorem inv_enter {c : Context} (h : c.Inv) {q : ReqState} {sel : Selected}
    (hworking : q = .holdWorking ∨ q = .failStandby ∨ q = .manualWorking → sel = .working)
    (hstandby : q = .forceStandby ∨ q = .failWorking ∨ q = .manualStandby → sel = .standby)
    (hrests : q = .none → c.mode = .revertive → sel = .working) (hwait : q ≠ .restoreWait) :
    (c.enter q sel).Inv := by
  obtain ⟨-, -, -, -, -, time, count⟩ := h
  constructor
  case time => exact ⟨time.1, Nat.zero_le _⟩
  all_goals simp_all [Context.enter]

theorem inv_reevaluate {c : Context} (h : c.Inv) (workingBad standbyBad : Bool) :
    (c.reevaluate workingBad standbyBad).Inv := by
  unfold Context.reevaluate
  repeat' split
  all_goals refine inv_enter h ?_ ?_ ?_ ?_ <;> simp_all

theorem inv_workingCleared {c : Context} (h : c.Inv) (turn : Turn) : (c.workingCleared turn).Inv := by
  unfold Context.workingCleared
  split
  case h_1 hmode =>
    obtain ⟨-, -, -, -, -, ⟨hpos, -⟩, count⟩ := h
    have hlt := c.wtrTime.isLt
    constructor
    case time => exact ⟨hpos, by simp only [Config.longUnitFrames]; omega⟩
    case waits => exact fun _ => ⟨hmode, by simp only [Config.longUnitFrames]; omega⟩
    all_goals simp_all
  case h_2 hmode => exact inv_enter h (by simp) (by simp) (by simp [hmode]) (by simp)

/-- What a standby request makes of a context (R136). -/
theorem takeStandby_cases (c : Context) (workingBad standbyBad fail : Bool) :
    c.takeStandby workingBad standbyBad fail = c ∨
      c.takeStandby workingBad standbyBad fail = c.enter .failStandby .working ∨
      c.takeStandby workingBad standbyBad fail = c.reevaluate workingBad standbyBad := by
  unfold Context.takeStandby
  repeat' split
  all_goals simp

/-- What a working request makes of a context (R136). -/
theorem takeWorking_cases (c : Context) (turn : Turn) (fail : Bool) :
    c.takeWorking turn fail = c ∨ c.takeWorking turn fail = c.enter .failWorking .standby ∨
      c.takeWorking turn fail = c.workingCleared turn := by
  unfold Context.takeWorking
  repeat' split
  all_goals simp

/-- What an accepted SWITCH makes of a context (R133 to R135). -/
theorem command_cases {c c' : Context} {workingBad standbyBad : Bool} {cmd : SwitchCommand}
    (h : c.command workingBad standbyBad cmd = some c') :
    c' = c.reevaluate workingBad standbyBad ∨ c' = c.enter .holdWorking .working ∨
      c' = c.enter .forceStandby .standby ∨ c' = c.enter .manualStandby .standby ∨
      c' = c.enter .manualWorking .working := by
  unfold Context.command at h
  repeat' split at h
  all_goals cases h
  all_goals simp

theorem inv_takeStandby {c : Context} (h : c.Inv) (workingBad standbyBad fail : Bool) :
    (c.takeStandby workingBad standbyBad fail).Inv := by
  obtain heq | heq | heq := takeStandby_cases c workingBad standbyBad fail <;> rw [heq]
  · exact h
  · exact inv_enter h (by simp) (by simp) (by simp) (by simp)
  · exact inv_reevaluate h ..

theorem inv_takeWorking {c : Context} (h : c.Inv) (turn : Turn) (fail : Bool) :
    (c.takeWorking turn fail).Inv := by
  obtain heq | heq | heq := takeWorking_cases c turn fail <;> rw [heq]
  · exact h
  · exact inv_enter h (by simp) (by simp) (by simp) (by simp)
  · exact inv_workingCleared h turn

theorem inv_takeFails {c : Context} (h : c.Inv) (turn : Turn) (workingBad standbyBad : Bool)
    (standby working : Option Bool) : (c.takeFails turn workingBad standbyBad standby working).Inv := by
  unfold Context.takeFails
  have hstandby : (standby.elim c (c.takeStandby workingBad standbyBad)).Inv := by
    cases standby with
    | none => exact h
    | some fail => exact inv_takeStandby h workingBad standbyBad fail
  cases working with
  | none => exact hstandby
  | some fail => exact inv_takeWorking hstandby turn fail

theorem inv_command {c c' : Context} (h : c.Inv) {workingBad standbyBad : Bool} {cmd : SwitchCommand}
    (hc : c.command workingBad standbyBad cmd = some c') : c'.Inv := by
  obtain rfl | rfl | rfl | rfl | rfl := command_cases hc
  · exact inv_reevaluate h ..
  all_goals exact inv_enter h (by simp) (by simp) (by simp) (by simp)

theorem record_reevaluate (c : Context) (a b : Bool) : (c.reevaluate a b).record = c.record := by
  unfold Context.reevaluate
  repeat' split
  all_goals rfl

theorem record_takeFails (c : Context) (turn : Turn) (a b : Bool) (standby working : Option Bool) :
    (c.takeFails turn a b standby working).record = c.record := by
  have hstandby : ∀ fail, (c.takeStandby a b fail).record = c.record := by
    intro fail
    obtain heq | heq | heq := takeStandby_cases c a b fail <;> rw [heq]
    · rfl
    · exact record_reevaluate ..
  have hcleared : ∀ d : Context, (d.workingCleared turn).record = d.record := by
    intro d
    unfold Context.workingCleared
    split <;> rfl
  have hworking : ∀ (d : Context) fail, (d.takeWorking turn fail).record = d.record := by
    intro d fail
    obtain heq | heq | heq := takeWorking_cases d turn fail <;> rw [heq]
    · rfl
    · exact hcleared d
  cases standby <;> cases working <;> simp [Context.takeFails, hstandby, hworking]

theorem record_command {c c' : Context} {a b : Bool} {cmd : SwitchCommand} (hc : c.command a b cmd = some c') :
    c'.record = c.record := by
  obtain rfl | rfl | rfl | rfl | rfl := command_cases hc
  · exact record_reevaluate ..
  all_goals rfl

theorem inv_tick {c : Context} (h : c.Inv) : c.tick.Inv := by
  have hself := h
  obtain ⟨working, standby, rests, waits, idle, time, count⟩ := h
  unfold Context.tick
  repeat' split
  · constructor <;> simp_all
  · exact hself
  · constructor <;> simp_all
  · constructor
    case time => exact ⟨time.1, (Nat.sub_le ..).trans time.2⟩
    case waits => exact fun hw => ⟨(waits hw).1, by simp only; omega⟩
    all_goals simp_all
  · exact hself

theorem record_tick (c : Context) : c.tick.record = c.record := by
  unfold Context.tick
  repeat' split
  all_goals rfl

theorem inv_newContext (id : Nat) (mode : Mode) {wtr : Option Byte} (h : wtr ≠ some 0) :
    (newContext id mode wtr).Inv := by
  have hpos : 1 ≤ (wtr.getD 30).toNat := by
    cases wtr with
    | none => decide
    | some b =>
      refine Nat.pos_of_ne_zero fun h0 => h (congrArg some (BitVec.eq_of_toNat_eq ?_))
      exact h0
  constructor
  case time => exact ⟨hpos, Nat.zero_le _⟩
  all_goals simp [newContext]

/-! ### Records that keep their triples -/

theorem rewrites_pending (r : Record) : Rewrites r { r with pending := true } where
  inv h := { h with inFlight := fun _ => rfl }
  triples := rfl
  context := rfl
  staged := id

theorem rewrites_modified (r : Record) (q : ModifyReq) : Rewrites r (r.modified q) where
  inv h := { h with inFlight := fun hf => by simp [Record.modified, h.inFlight hf] }
  triples := rfl
  context := rfl
  staged := id

/-- A record that is not STAGED in another such state, in the set (R77, R79, R80). -/
theorem rewrites_state {r : Record} (st : RecState) (rev : Byte) (hst : st ≠ .staged) :
    Rewrites r { r with state := st, revision := rev, pending := true } where
  inv h := { h with inFlight := fun _ => rfl, staged := fun hs => absurd hs hst }
  triples := rfl
  context := rfl
  staged hs := absurd hs hst

theorem dests_leaveAt (l : List Dest) (i : Nat) : (leaveAt l i).map (·.dest) = l.map (·.dest) := by
  induction l generalizing i with
  | nil => rfl
  | cons d t ih =>
    cases i with
    | zero => rfl
    | succ i => simp only [leaveAt, List.map_cons, ih]

theorem length_leaveAt (l : List Dest) (i : Nat) : (leaveAt l i).length = l.length := by
  simpa using congrArg List.length (dests_leaveAt l i)

theorem rewrites_remove {r : Record} {q : ModifyReq} {i : Nat} (hkind : r.kind = .branch)
    (hq : q.remove.isSome = true) (hcan : r.canRemove i = true) :
    Rewrites r { r.modified q with dests := leaveAt r.dests i } := by
  have hstay : 2 ≤ ((leaveAt r.dests i).filter fun d => d.state ≠ .leaving).length := by
    unfold Record.canRemove at hcan
    split at hcan
    · simp only [Bool.and_eq_true, decide_eq_true_eq] at hcan
      exact hcan.2
    · cases hcan
  have htriples : ({ r.modified q with dests := leaveAt r.dests i } : Record).triples = r.triples := by
    simp only [Record.triples, dests_leaveAt]
    rfl
  have hends : ∀ d ∈ leaveAt r.dests i, ∃ e ∈ r.dests, e.dest = d.dest := by
    intro d hd
    have h := List.mem_map_of_mem (f := Dest.dest) hd
    rw [dests_leaveAt] at h
    exact List.mem_map.mp h
  have hpending : (r.modified q).pending = true := by simp [Record.modified, hq]
  refine ⟨fun h => ?_, htriples, rfl, id⟩
  exact { h with
    ends := ⟨h.ends.1, fun d hd => by
      obtain ⟨e, he, heq⟩ := hends d hd
      exact heq ▸ h.ends.2.1 e he, h.ends.2.2⟩
    distinct := by rw [htriples]; exact h.distinct
    single := fun hne => absurd hkind hne
    branch := fun hb => ⟨(length_leaveAt ..).trans_le (h.branch hb).1, hstay⟩
    inFlight := fun _ => hpending }

/-! ### Health -/

theorem sane_good : Health.good.Sane := rfl

theorem sane_failed : (⟨.failed, 0⟩ : Health).Sane := rfl

theorem sane_move {h : Health} (hs : h.Sane) (holdOff clearTime : Byte) (defect : Bool) :
    (h.move holdOff.toNat clearTime.toNat defect).Sane := by
  have hho := holdOff.isLt
  have hct := clearTime.isLt
  have hself := hs
  unfold Health.Sane at hs
  unfold Health.move startFail startClear
  split <;> rename_i hstate <;> rw [hstate] at hs
  case h_1 =>
    split
    · exact sane_failed
    · exact ⟨by simp only; omega, by simp only; omega⟩
  case h_2 | h_5 => exact hself
  case h_3 =>
    split
    · exact sane_failed
    · exact ⟨by simp only; omega, by simp only at hs ⊢; omega⟩
  case h_4 => exact sane_good
  case h_6 =>
    split
    · exact sane_good
    · exact ⟨by simp only [Config.clearUnitIntervals]; omega, by simp only [Config.clearUnitIntervals]; omega⟩
  case h_7 => exact sane_failed
  case h_8 =>
    split
    · exact sane_good
    · exact ⟨by simp only; omega, by simp only at hs ⊢; omega⟩

theorem healthBA_evaluated (s : State) (r : Record) :
    ((s.evaluated r).healthBA.isSome = r.healthBA.isSome) ∧
      ∀ h, (s.evaluated r).healthBA = some h → r.healthBA = some h ∨
        ∃ h0 e, r.healthBA = some h0 ∧ h = s.moved r h0 e := by
  cases hb : r.healthBA <;> cases hd : r.dests.head? <;> simp [State.evaluated, hb, hd]

theorem healthS_evaluated (s : State) (r : Record) :
    ((s.evaluated r).healthS.isSome = r.healthS.isSome) ∧
      ∀ h, (s.evaluated r).healthS = some h → r.healthS = some h ∨
        ∃ h0 e, r.healthS = some h0 ∧ h = s.moved r h0 e := by
  cases hb : r.healthS <;> cases hd : r.standby <;> simp [State.evaluated, hb, hd]

theorem rewrites_evaluated {s : State} {r : Record} {pending : Bool} (hp : r.pending = true → pending = true)
    (hstate : r.state = .active ∨ r.state = .held) :
    Rewrites r { s.evaluated r with pending := pending, handOverDue := false } where
  inv h := by
    obtain ⟨hBA, hBAfrom⟩ := healthBA_evaluated s r
    obtain ⟨hS, hSfrom⟩ := healthS_evaluated s r
    obtain ⟨hAB, htBA, htS⟩ := h.timers
    exact { h with
      healthBA := hBA.trans h.healthBA
      standby := ⟨hS.trans h.standby.1, h.standby.2⟩
      inFlight := fun hf => hp (h.inFlight hf)
      timers := by
        refine ⟨sane_move hAB .., fun x hx => ?_, fun x hx => ?_⟩
        · obtain hx | ⟨h0, e, h0', rfl⟩ := hBAfrom x hx
          · exact htBA x hx
          · exact sane_move (htBA h0 h0') ..
        · obtain hx | ⟨h0, e, h0', rfl⟩ := hSfrom x hx
          · exact htS x hx
          · exact sane_move (htS h0 h0') ..
      staged := fun hst => by
        have hst' : r.state = .staged := hst
        rw [hst'] at hstate
        simp at hstate
      handOver := fun hh => by cases hh }
  triples := rfl
  context := rfl
  staged := id

/-! ### A context's step -/

theorem tableMoves_commitContext {s : State} {id k : Nat} {c c' : Context} {r : Record}
    (hr : s.records.get id = some r) (hk : s.contexts.get k = some c) (hinv : c.Inv → c'.Inv)
    (hrecord : c'.record = c.record) : TableMoves s (s.commitContext id k c c') := by
  by_cases hsel : c.selected = c'.selected
  · rw [commitContext_same hsel]
    exact .single (.commit k c c' hk hinv hrecord)
  · have hcounted : c.Inv → ({ c' with switches := satSucc Config.counterMax c.switches } : Context).Inv := by
      intro hc
      obtain ⟨working, standby, rests, waits, idle, time, -⟩ := hinv hc
      exact ⟨working, standby, rests, waits, idle, time, satSucc_le hc.count⟩
    have hcommit := TableMove.commit k c { c' with switches := satSucc Config.counterMax c.switches } hk hcounted
      hrecord
    have hpending := rewrites_pending r
    simp only [State.commitContext, if_neg hsel, State.markPending, hr]
    refine ((Relation.ReflTransGen.single hcommit).tail (.rewrite id r _ hr hpending)).tail
      (.post (.record id) .select ⟨rfl, { r with pending := true }, ?_⟩)
    exact Table.get_put_same ..

end Sys2Proof.Proofs
end

section
/-! PROOFS. The triples of ends and records and their keys, and the records that CONNECT, MODIFY, PROTECT and
UNPROTECT make. -/

namespace Sys2Proof.Proofs

open Sys2Proof Sys2Proof.Machine

/-! ### Triples and keys -/

theorem mem_slots {width : Nat} {e : End} {slot : Nat} :
    slot ∈ e.slots width ↔ e.first ≤ slot ∧ slot < e.first + width := by
  simp only [End.slots, List.mem_map, List.mem_range]
  constructor
  · rintro ⟨k, hk, rfl⟩
    omega
  · rintro ⟨hle, hlt⟩
    exact ⟨slot - e.first, by omega, by omega⟩

theorem mem_triples {width : Nat} {dir : Dir} {e : End} {t : Triple} : t ∈ e.triples width dir ↔
    t.port = e.port ∧ t.dir = dir ∧ e.first ≤ t.slot ∧ t.slot < e.first + width := by
  obtain ⟨port, slot, d⟩ := t
  simp only [End.triples, List.mem_map, mem_slots, Triple.mk.injEq]
  constructor
  · rintro ⟨x, hx, rfl, rfl, rfl⟩
    exact ⟨rfl, rfl, hx⟩
  · rintro ⟨rfl, rfl, hx⟩
    exact ⟨slot, hx, rfl, rfl, rfl⟩

theorem nodup_triples (width : Nat) (dir : Dir) (e : End) : (e.triples width dir).Nodup := by
  have hslots : (e.slots width).Nodup := List.nodup_range.map fun _ _ h => Nat.add_left_cancel h
  exact hslots.map fun _ _ h => (Triple.mk.inj h).2.1

/-- A triple's slot is one of a frame. -/
def Ranged (t : Triple) : Prop := t.slot < 36

theorem key_inj {t u : Triple} (ht : Ranged t) (hu : Ranged u) (h : t.key = u.key) : t = u := by
  obtain ⟨p, a, d⟩ := t
  obtain ⟨q, b, e⟩ := u
  have hp := p.isLt
  have hq := q.isLt
  simp only [Ranged] at ht hu
  cases d <;> cases e <;> simp only [Triple.key, Config.frameSlots] at h
  · rw [Triple.mk.injEq, Fin.ext_iff]; exact ⟨by omega, by omega, rfl⟩
  · omega
  · omega
  · rw [Triple.mk.injEq, Fin.ext_iff]; exact ⟨by omega, by omega, rfl⟩

theorem nodup_keys {l : List Triple} (hr : ∀ t ∈ l, Ranged t) (h : l.Nodup) : (l.map Triple.key).Nodup :=
  h.map_on fun t ht u hu => key_inj (hr t ht) (hr u hu)

theorem ranged_of_inRange {width : Nat} {dir : Dir} {e : End} (h : e.InRange width) :
    ∀ t ∈ e.triples width dir, Ranged t := by
  intro t ht
  obtain ⟨-, -, -, hlt⟩ := mem_triples.mp ht
  exact lt_of_lt_of_le hlt h.2

/-- The keys of an end's transmit triples are its transmit slots', behind the receive side's. -/
theorem key_tx (width : Nat) (e : End) :
    (e.triples width .tx).map Triple.key = (e.txKeys width).map (16 * Config.frameSlots + ·) := by
  simp only [End.triples, End.txKeys, List.map_map]
  rfl

theorem key_rx_lt {t : Triple} (hr : Ranged t) (hd : t.dir = .rx) : t.key < 16 * Config.frameSlots := by
  have hp := t.port.isLt
  simp only [Ranged] at hr
  simp only [Triple.key, hd, Config.frameSlots]
  omega

/-- The slot map's keys of a record's triples. -/
def slotKeys (r : Record) : List Nat := r.triples.map Triple.key

/-! ### Ends in range -/

theorem toEnd_inRange {width : Nat} {e : RawEnd} {x : End} (h : toEnd width e = some x) : x.InRange width := by
  unfold toEnd at h
  split at h
  case h_1 p _ =>
    split at h
    case isTrue hr =>
      cases h
      simp only [Config.lastSlot] at hr
      exact ⟨hr.1, by simp only; omega⟩
    case isFalse => cases h
  case h_2 => cases h

theorem toEnds_inRange {width : Nat} {l : List RawEnd} {xs : List End}
    (h : toEnds width l = some xs) : ∀ x ∈ xs, x.InRange width := by
  induction l generalizing xs with
  | nil =>
    cases h
    intro x hx
    cases hx
  | cons e l ih =>
    unfold toEnds at h
    split at h
    case h_1 y ys hy hys =>
      cases h
      exact List.forall_mem_cons.mpr ⟨toEnd_inRange hy, ih hys⟩
    case h_2 => cases h

/-- A record's ends in range, and with them its triples. -/
theorem ranged_triples {r : Record} (hsource : r.source.InRange r.width)
    (hdests : ∀ d ∈ r.dests, d.dest.InRange r.width) (hstandby : ∀ e, r.standby = some e → e.InRange r.width)
    (hleaving : ∀ e, r.leaving = some e → e.InRange r.width) : ∀ t ∈ r.triples, Ranged t := by
  have hopt : ∀ o : Option End, (∀ e, o = some e → e.InRange r.width) →
      ∀ t ∈ o.elim [] (End.triples r.width .rx), Ranged t := by
    intro o ho t ht
    cases o with
    | none => cases ht
    | some e => exact ranged_of_inRange (ho e rfl) t ht
  have hconnect : ∀ t ∈ connectTriples r.kind r.width r.source (r.dests.map (·.dest)), Ranged t := by
    intro t ht
    unfold connectTriples at ht
    split at ht
    all_goals
      simp only [List.mem_append, List.mem_flatMap, List.mem_map] at ht
    case h_1 =>
      obtain (ht | ht) | ⟨e, ⟨d, hd, rfl⟩, ht | ht⟩ := ht
      · exact ranged_of_inRange hsource t ht
      · exact ranged_of_inRange hsource t ht
      · exact ranged_of_inRange (hdests d hd) t ht
      · exact ranged_of_inRange (hdests d hd) t ht
    all_goals
      obtain ht | ⟨e, ⟨d, hd, rfl⟩, ht⟩ := ht
      · exact ranged_of_inRange hsource t ht
      · exact ranged_of_inRange (hdests d hd) t ht
  intro t ht
  simp only [Record.triples, List.mem_append] at ht
  obtain (ht | ht) | ht := ht
  · exact hconnect t ht
  · exact hopt _ hstandby t ht
  · exact hopt _ hleaving t ht

theorem ranged_of_inv {r : Record} (h : r.Inv) : ∀ t ∈ r.triples, Ranged t :=
  ranged_triples h.ends.1 h.ends.2.1 h.ends.2.2.1 h.ends.2.2.2

/-- Triples of a new end that a record does not hold go with its own. -/
theorem nodup_extended {r r' : Record} {e : End} {dir : Dir} (h : r.Inv) (he : e.InRange r.width)
    (hnew : ∀ t ∈ e.triples r.width dir, t ∉ r.triples)
    (hperm : r'.triples.Perm (r.triples ++ e.triples r.width dir)) : (r'.triples.map Triple.key).Nodup := by
  refine ((hperm.map Triple.key).nodup_iff).mpr ?_
  rw [List.map_append]
  refine List.nodup_append.mpr ⟨h.distinct, nodup_keys (ranged_of_inRange he) (nodup_triples ..), ?_⟩
  intro a ha b hb hab
  obtain ⟨t, ht, rfl⟩ := List.mem_map.mp ha
  obtain ⟨u, hu, rfl⟩ := List.mem_map.mp hb
  have heq := key_inj (ranged_of_inv h t ht) (ranged_of_inRange he u hu) hab
  exact hnew u hu (heq ▸ ht)

/-! ### CONNECT -/

/-- What a CONNECT's parameters give where they pass their checks (R67, R68). -/
theorem connectPlan_eq_some {q : ConnectReq} {p : ConnectPlan} (h : connectPlan q = some p) :
    1 ≤ p.width ∧ p.width ≤ 35 ∧ p.kind.allowsCount p.dests.length = true ∧ p.source.InRange p.width ∧
      (∀ d ∈ p.dests, d.InRange p.width) ∧ (connectTriples p.kind p.width p.source p.dests).Nodup := by
  unfold connectPlan at h
  simp only at h
  split at h
  case h_1 kind source dests hk hs hd =>
    split at h
    case isTrue hc =>
      cases h
      obtain ⟨hlow, hhigh, hcount, hnodup⟩ := hc
      exact ⟨hlow, hhigh, hcount, toEnd_inRange hs, toEnds_inRange hd, hnodup⟩
    case isFalse => cases h
  case h_2 => cases h

theorem dests_newRecord (q : ConnectReq) (p : ConnectPlan) :
    (newRecord q p).dests.map (·.dest) = p.dests := by
  simp only [newRecord, List.map_map]
  exact (List.map_congr_left fun _ _ => rfl).trans (List.map_id _)

theorem triples_newRecord (q : ConnectReq) (p : ConnectPlan) :
    (newRecord q p).triples = connectTriples p.kind p.width p.source p.dests := by
  simp only [Record.triples, dests_newRecord]
  simp [newRecord]

theorem inv_newRecord {q : ConnectReq} {p : ConnectPlan} (h : connectPlan q = some p) :
    (newRecord q p).Inv := by
  obtain ⟨hlow, hhigh, hcount, hsource, hdests, hnodup⟩ := connectPlan_eq_some h
  have hends : ∀ d ∈ (newRecord q p).dests, d.dest.InRange p.width := by
    intro d hd
    obtain ⟨e, he, rfl⟩ := List.mem_map.mp hd
    exact hdests e he
  constructor
  case width => exact ⟨hlow, hhigh⟩
  case ends => exact ⟨hsource, hends, fun e he => (by cases he), fun e he => (by cases he)⟩
  case distinct =>
    refine nodup_keys (ranged_triples hsource hends (fun e he => (by cases he)) fun e he => (by cases he)) ?_
    rw [triples_newRecord]
    exact hnodup
  case single =>
    intro hkind
    have hone : p.dests.length = 1 := by
      change p.kind ≠ .branch at hkind
      cases hk : p.kind <;> simp_all [Kind.allowsCount]
    obtain ⟨e, he⟩ := List.length_eq_one_iff.mp hone
    exact ⟨e, by simp [newRecord, he]⟩
  case branch =>
    intro hkind
    change p.kind = .branch at hkind
    simp only [hkind, Kind.allowsCount, decide_eq_true_eq] at hcount
    have hstay : (newRecord q p).staying.length = p.dests.length := by
      have hall : (newRecord q p).staying = (newRecord q p).dests := by
        refine List.filter_eq_self.mpr fun d hd => ?_
        obtain ⟨e, -, rfl⟩ := List.mem_map.mp hd
        rfl
      rw [hall]
      exact List.length_map ..
    rw [hstay]
    exact ⟨by simpa [newRecord] using hcount.2, hcount.1⟩
  case healthBA => cases hk : p.kind <;> simp [newRecord, hk]
  case timers =>
    refine ⟨sane_good, fun x hx => ?_, fun x hx => (by cases hx)⟩
    simp only [newRecord] at hx
    split at hx
    · cases hx
      exact sane_good
    · cases hx
  case staged =>
    refine fun _ => ⟨rfl, fun x hx => ?_, fun x hx => (by cases hx)⟩
    simp only [newRecord] at hx
    split at hx
    · cases hx
      rfl
    · cases hx
  all_goals simp [newRecord]

/-! ### MODIFY's new destination (R74) -/

/-- A BRANCH record with a JOINING entry added. -/
def withDest (r : Record) (x : End) : Record := { r with dests := r.dests ++ [⟨x, .joining⟩] }

theorem canAdd_eq_some {r : Record} {e : RawEnd} {x : End} (h : r.canAdd e = some x) :
    toEnd r.width e = some x ∧ r.dests.length < 4 ∧ ∀ t ∈ x.triples r.width .tx, t ∉ r.triples := by
  unfold Record.canAdd at h
  split at h
  case h_1 y hy =>
    split at h
    case isTrue hc => cases h; exact ⟨hy, hc⟩
    case isFalse => cases h
  case h_2 => cases h

theorem triples_added {r : Record} (hkind : r.kind = .branch) (x : End) :
    (withDest r x).triples.Perm (r.triples ++ x.triples r.width .tx) := by
  simp only [withDest, Record.triples, connectTriples, hkind, List.map_append, List.map_cons, List.map_nil,
    List.flatMap_append, List.flatMap_cons, List.flatMap_nil, List.append_nil, List.append_assoc]
  refine .append_left _ (.append_left _ ?_)
  rw [← List.append_assoc (r.standby.elim ..)]
  exact List.perm_append_comm

theorem inv_added {r : Record} (hkind : r.kind = .branch) {x : End} {pending : Bool}
    (hlength : r.dests.length < 4) (hnew : ∀ t ∈ x.triples r.width .tx, t ∉ r.triples)
    (hrange : x.InRange r.width) (hp : pending = true) (h : r.Inv) :
    ({ withDest r x with pending := pending } : Record).Inv := by
  refine { h with
    ends := ⟨h.ends.1, ?_, h.ends.2.2⟩
    distinct := nodup_extended h hrange hnew (triples_added hkind x)
    single := fun hne => absurd hkind hne
    branch := fun hb => ⟨?_, ?_⟩
    inFlight := fun _ => hp }
  · intro d hd
    obtain hd | hd := List.mem_append.mp hd
    · exact h.ends.2.1 d hd
    · cases List.mem_singleton.mp hd
      exact hrange
  · simpa [withDest] using hlength
  · have hstay := (h.branch hkind).2
    simp only [Record.staying, withDest, List.filter_append, List.length_append] at hstay ⊢
    omega

/-! ### PROTECT and UNPROTECT -/

theorem canProtect_eq_some {r : Record} {q : ProtectReq} {e : End} {mode : Mode}
    (h : r.canProtect q = some (e, mode)) : toEnd r.width q.standby = some e ∧ r.kind ≠ .duplex ∧
      q.wtr ≠ some 0 ∧ ∀ t ∈ e.triples r.width .rx, t ∉ r.triples := by
  unfold Record.canProtect at h
  split at h
  case h_1 y m hy hm =>
    split at h
    case isTrue hc => cases h; exact ⟨hy, hc⟩
    case isFalse => cases h
  case h_2 => cases h

/-- A record without a context has no standby (R44). -/
theorem standby_none {r : Record} (h : r.Inv) (hc : r.context = none) : r.standby = none := by
  have hboth := h.standby.2
  rw [hc] at hboth
  exact Option.not_isSome_iff_eq_none.mp (by simp [← hboth])

theorem triples_withStandby {r : Record} (h : r.Inv) (hc : r.context = none) (hl : r.leaving = none) (e : End)
    (k : Nat) : (r.withStandby e k).triples = r.triples ++ e.triples r.width .rx := by
  simp [Record.triples, Record.withStandby, standby_none h hc, hl]

theorem inv_withStandby {r : Record} {e : End} {k : Nat} (hc : r.context = none) (hl : r.leaving = none)
    (hkind : r.kind ≠ .duplex) (hnew : ∀ t ∈ e.triples r.width .rx, t ∉ r.triples)
    (hrange : e.InRange r.width) (h : r.Inv) : (r.withStandby e k).Inv := by
  have htriples := triples_withStandby h hc hl e k
  refine { h with
    ends := ⟨h.ends.1, h.ends.2.1, fun x hx => ?_, h.ends.2.2.2⟩
    distinct := nodup_extended h hrange hnew (.of_eq htriples)
    standby := ⟨rfl, rfl⟩
    duplex := fun hd => absurd hd hkind
    oneStandby := fun _ => hl
    timers := ⟨h.timers.1, h.timers.2.1, fun x hx => ?_⟩
    staged := fun hs => ⟨(h.staged hs).1, (h.staged hs).2.1, fun x hx => ?_⟩
    handOver := fun _ => rfl }
  · cases hx
    exact hrange
  · cases hx
    exact sane_good
  · cases hx
    rfl

/-- The leaving standby of a record is the standby it had: they are one reservation (R129). -/
theorem triples_unprotected {r : Record} (h : r.Inv) {k : Nat} (hk : r.context = some k) :
    r.unprotected.triples = r.triples := by
  have hstandby : r.standby.isSome = true := by rw [← h.standby.2, hk]; rfl
  simp [Record.triples, Record.unprotected, h.oneStandby hstandby]

theorem inv_unprotected {r : Record} {k : Nat} (hk : r.context = some k) (h : r.Inv) : r.unprotected.Inv := by
  have hstandby : r.standby.isSome = true := by rw [← h.standby.2, hk]; rfl
  exact { h with
    ends := ⟨h.ends.1, h.ends.2.1, fun x hx => (by cases hx), h.ends.2.2.1⟩
    distinct := by rw [triples_unprotected h hk]; exact h.distinct
    standby := ⟨rfl, rfl⟩
    duplex := fun hd => ⟨rfl, (h.duplex hd).1⟩
    oneStandby := fun hs => by cases hs
    inFlight := fun _ => rfl
    timers := ⟨h.timers.1, h.timers.2.1, fun x hx => by cases hx⟩
    staged := fun hs => ⟨(h.staged hs).1, (h.staged hs).2.1, fun x hx => by cases hx⟩
    handOver := fun hs => by cases hs }

end Sys2Proof.Proofs
end

section
/-! PROOFS. Every command's effect on the tables and the list is made of the moves. -/

namespace Sys2Proof.Proofs

open Sys2Proof Sys2Proof.Machine

/-! ### Record requests -/

theorem tableMoves_freeRecord {s : State} {id : Nat} {r : Record} (hr : s.records.get id = some r)
    (hstate : r.state = .staged) : TableMoves s (s.freeRecord id r) := .single (.discard id r hr hstate)

theorem tableMoves_rewrite {s : State} {id : Nat} {r r' : Record} (hr : s.records.get id = some r)
    (h : Rewrites r r') : TableMoves s (s.setRecord id r') := .single (.rewrite id r r' hr h)

theorem tableMoves_modifyAdd {s : State} {id : Nat} {r : Record} (hr : s.records.get id = some r)
    {q : ModifyReq} {e : RawEnd} (hadd : q.add = some e) (hkind : r.kind = .branch) :
    TableMoves s (modifyAdd q e id r s).2 := by
  unfold modifyAdd
  split
  case h_1 => exact .refl
  case h_2 x hx =>
    obtain ⟨hend, hlength, hnew⟩ := canAdd_eq_some hx
    split
    case h_1 => exact .refl
    case h_2 hfree =>
      have heq : { r.modified q with dests := r.dests ++ [⟨x, .joining⟩] } =
          ({ withDest r x with pending := true } : Record).modified q := by
        simp [Record.modified, withDest, hadd]
      refine .single (.extend id r _ _ hr (fun h => ?_) (triples_added hkind x) (firstHeld_none.mp hfree) rfl rfl)
      rw [heq]
      exact (rewrites_modified _ q).inv (inv_added hkind hlength hnew (toEnd_inRange hend) rfl h)

theorem tableMoves_modify {s : State} {id : Nat} {r : Record} (hr : s.records.get id = some r) (q : ModifyReq) :
    TableMoves s (modifyRecord q id r s).2 := by
  unfold modifyRecord
  split
  case isTrue => exact .refl
  case isFalse =>
    split
    case h_1 => exact .refl
    case h_2 e hadd hremove =>
      split
      case isTrue hkind => exact tableMoves_modifyAdd hr hadd hkind
      case isFalse => exact .refl
    case h_3 i hadd hremove =>
      split
      case isTrue hkind =>
        unfold modifyRemove
        split
        case isTrue hcan => exact tableMoves_rewrite hr (rewrites_remove hkind (by rw [hremove]; rfl) hcan)
        case isFalse => exact .refl
      case isFalse => exact .refl
    case h_4 =>
      split
      · exact tableMoves_rewrite hr (rewrites_modified r q)
      · exact .refl

theorem tableMoves_retire {s : State} {id : Nat} {r : Record} (hr : s.records.get id = some r) :
    TableMoves s (retireRecord id r s).2 := by
  unfold retireRecord
  split
  case h_1 hstate => exact tableMoves_freeRecord hr hstate
  case h_2 | h_3 => exact tableMoves_rewrite hr (rewrites_state .retiring r.revision (by decide))
  case h_4 => exact .refl

theorem tableMoves_protect {s : State} {id : Nat} {r : Record} (hr : s.records.get id = some r)
    (q : ProtectReq) : TableMoves s (protectRecord q id r s).2 := by
  unfold protectRecord
  split
  case isTrue => exact .refl
  case isFalse hno =>
    simp only [not_or, Option.not_isSome_iff_eq_none] at hno
    obtain ⟨-, hcontext, hleaving⟩ := hno
    split
    case h_1 => exact .refl
    case h_2 e mode hcan =>
      obtain ⟨hend, hkind, hwtr, hnew⟩ := canProtect_eq_some hcan
      split
      case h_1 => exact .refl
      case h_2 hfree =>
        split
        case h_1 => exact .refl
        case h_2 k hk =>
          exact .single (.bind id k r (r.withStandby e k) _ (newContext id mode q.wtr) hr
            (inv_withStandby hcontext hleaving hkind hnew (toEnd_inRange hend))
            (fun h => triples_withStandby h hcontext hleaving e k) (firstHeld_none.mp hfree) hcontext rfl rfl hk
            (inv_newContext id mode hwtr) rfl)

theorem tableMoves_unprotect {s : State} {id : Nat} {r : Record} (hr : s.records.get id = some r) :
    TableMoves s (unprotectRecord id r s).2 := by
  unfold unprotectRecord
  split
  case isTrue => exact .refl
  case isFalse =>
    split
    case h_1 => exact .refl
    case h_2 k c hc =>
      obtain ⟨hk, -⟩ := contextOf_eq_some.mp hc
      exact .single (.unbind id k r r.unprotected hr hk (inv_unprotected hk)
        (fun h => triples_unprotected h hk) rfl rfl)

theorem tableMoves_switch {s : State} {id : Nat} {r : Record} (hr : s.records.get id = some r) (command : Byte) :
    TableMoves s (switchRecord command id r s).2 := by
  unfold switchRecord
  split
  case isTrue => exact .refl
  case isFalse =>
    split
    case h_1 => exact .refl
    case h_2 k c hc =>
      obtain ⟨-, hget⟩ := contextOf_eq_some.mp hc
      split
      case h_1 => exact .refl
      case h_2 cmd _ =>
        split
        case h_1 => exact .refl
        case h_2 c' hc' =>
          exact tableMoves_commitContext hr hget (fun h => inv_command h hc') (record_command hc')

theorem RecordAct.tableMoves {act : Nat → Record → State → Answer × State} (h : RecordAct act) {s : State}
    {id : Nat} {r : Record} (hr : s.records.get id = some r) : TableMoves s (act id r s).2 := by
  cases h with
  | modify q => exact tableMoves_modify hr q
  | retire => exact tableMoves_retire hr
  | hold =>
    unfold holdRecord
    split
    · exact tableMoves_rewrite hr (rewrites_state .held _ (by decide))
    · exact .refl
  | release =>
    unfold releaseRecord
    split
    · exact tableMoves_rewrite hr (rewrites_state .active _ (by decide))
    · exact .refl
  | protect q => exact tableMoves_protect hr q
  | unprotect => exact tableMoves_unprotect hr
  | switch command => exact tableMoves_switch hr command

/-! ### Evaluations and expiries -/

theorem tableMoves_evaluateRecord (turn : Turn) (s : State) (id : Nat) :
    TableMoves s (s.evaluateRecord turn id) := by
  unfold State.evaluateRecord
  split
  case h_1 => exact .refl
  case h_2 r hr =>
    split
    case isFalse => exact .refl
    case isTrue hstate =>
      dsimp only
      set r' := { s.evaluated r with
        pending := r.pending || r.anyCrossed (s.evaluated r), handOverDue := false } with hr'
      have hrewrite : TableMoves s (s.setRecord id r') :=
        tableMoves_rewrite hr (rewrites_evaluated (fun hp => by rw [hp]; rfl) hstate)
      have hget : (s.setRecord id r').records.get id = some r' := Table.get_put_same ..
      have hpost := tableMoves_postIf (r.anyCrossed (s.evaluated r)) (s := s.setRecord id r')
        (x := .record id) (c := .health) ⟨rfl, r', hget⟩
      refine (hrewrite.trans hpost).trans ?_
      have hgetPost : ((s.setRecord id r').postIf (r.anyCrossed (s.evaluated r)) (.record id) .health).records.get id
          = some r' := by rw [records_postIf]; exact hget
      unfold State.handFails
      split
      case h_1 k c hc =>
        obtain ⟨-, hk⟩ := contextOf_eq_some.mp hc
        exact tableMoves_commitContext hgetPost hk (fun h => inv_takeFails h ..) (record_takeFails ..)
      case h_2 => exact .refl

theorem tableMoves_evaluate (s : State) (turn : Turn) : TableMoves s (s.evaluate turn) :=
  tableMoves_foldl (tableMoves_evaluateRecord turn) _ s

/-- A wait-to-restore timer that has ended leaves NONE on WORKING (R139). -/
theorem tableMoves_expireWait (turn : Turn) (s : State) (id : Nat) : TableMoves s (s.expireWait turn id) := by
  unfold State.expireWait
  split
  case h_1 => exact .refl
  case h_2 r hr =>
    split
    case h_1 => exact .refl
    case h_2 k c hc =>
      obtain ⟨-, hk⟩ := contextOf_eq_some.mp hc
      split
      · exact tableMoves_commitContext hr hk
          (fun h => inv_enter h (by simp) (by simp) (by simp) (by simp)) rfl
      · exact .refl

/-! ### System frame starts -/

theorem tableMoves_recompute (s : State) (id : Nat) : TableMoves s (s.recompute id) := by
  unfold State.recompute
  split
  case h_1 => exact .refl
  case h_2 r hr =>
    split
    case isTrue hstate => exact .single (.retireFrame id r hr hstate)
    case isFalse hstate =>
      rw [installAtFrame_eq]
      refine (Relation.ReflTransGen.single (.installFrame id r hr hstate)).trans (tableMoves_postIf _ ⟨rfl, ?_⟩)
      exact ⟨r.completed, Table.get_put_same ..⟩

theorem tableMoves_applyPending (s : State) : TableMoves s s.applyPending :=
  tableMoves_foldl tableMoves_recompute _ s

theorem tableMoves_tickCounts (s : State) : TableMoves s s.tickCounts := by
  have htick := TableMove.tick (s := s) (fun _ c => if s.inService c.record then c.tick else c)
    (fun _ c h => by
      split
      · exact inv_tick h
      · exact h)
    (fun _ c => by
      split
      · exact record_tick c
      · rfl)
  exact (Relation.ReflTransGen.single htick).tail (.frame _ rfl)

theorem tableMoves_interchanged (s : State) : TableMoves s (interchanged s) :=
  ((TableMoves.of_frame (s := s) (t := framesTaken s) rfl).trans (tableMoves_applyPending _)).trans
    (tableMoves_tickCounts _)

theorem tableMoves_frameStart (s : State) : TableMoves s s.frameStart := by
  rw [frameStart_eq]
  exact (tableMoves_interchanged s).trans (TableMoves.of_frame rfl)

theorem tableMoves_startAt (s : State) (moment : Nat) (r : RefMonitor) : TableMoves s (s.startAt moment r) := by
  rw [State.startAt]
  refine .trans ?_ (tableMoves_frameStart _)
  exact TableMoves.of_frame rfl

theorem tableSide_withPorts (s : State) (v : Vector Port 16) :
    tableSide ({ s with ports := v } : State) = tableSide s := rfl

theorem tableMoves_mark (s : State) (moment : Nat) : TableMoves s (s.mark moment) := by
  obtain ⟨-, heq | ⟨-, heq⟩ | ⟨-, heq⟩⟩ | ⟨-, ⟨-, heq⟩ | ⟨-, heq⟩⟩ := mark_cases s moment
  · rw [heq]
  · rw [heq]
    exact TableMoves.of_frame rfl
  · rw [heq]
    exact tableMoves_startAt ..
  · rw [heq, State.reacquireAt]
    exact (tableMoves_startAt ..).trans (TableMoves.of_frame (tableSide_withPorts ..))
  · rw [heq]
    exact TableMoves.of_frame rfl

theorem MarkStep.tableMoves {s t : State} (h : MarkStep s t) : TableMoves s t := by
  cases h with
  | mark m => exact tableMoves_mark s m
  | oscillator => exact tableMoves_startAt ..

/-! ### Ports and DEVICE_RESET -/

theorem tableMoves_postPort {s : State} (b : Bool) {n : PortNo} {c : Change} (hc : ofRecord c = false) :
    TableMoves s (s.postIf b (.port n) c) := tableMoves_postIf b hc

theorem tableMoves_changePort (s : State) (n : PortNo) (q : Port) : TableMoves s (s.changePort n q) := by
  dsimp only [State.changePort]
  refine .trans (.trans (.trans ?_ (tableMoves_postPort _ rfl)) (tableMoves_postPort _ rfl))
    (tableMoves_postPort _ rfl)
  exact TableMoves.of_frame rfl

theorem tableMoves_changePorts (s : State) (f : Port → Port) : TableMoves s (s.changePorts f) :=
  tableMoves_foldl (fun u n => tableMoves_changePort u n _) _ s

theorem tableMoves_resetPorts (s : State) : TableMoves s (resetPorts s) := by
  have hempty : TableMoves s s.emptied := .single (.clear _ rfl rfl rfl rfl rfl)
  refine hempty.trans (tableMoves_foldl (fun u n => ?_) _ _)
  unfold State.releaseInward
  split
  · exact tableMoves_changePort u n _
  · exact .refl

theorem tableSide_setMport (s : State) (p : MPortId) (x : MPort) : tableSide (s.setMport p x) = tableSide s := by
  cases p <;> rfl

theorem tableMoves_doDeviceReset (s : State) : TableMoves s (doDeviceReset s).2 := by
  rw [doDeviceReset_eq]
  split
  · exact (tableMoves_resetPorts s).trans (TableMoves.of_frame (tableSide_setMport ..))
  · exact tableMoves_resetPorts s

/-! ### Every effect -/

theorem tableSide_withInterval (s : State) (p : Period) :
    tableSide ({ s with interval := p } : State) = tableSide s := rfl

theorem tableSide_withSlipPeriod (s : State) (p : Period) :
    tableSide ({ s with slipPeriod := p } : State) = tableSide s := rfl

theorem Alters.tableMoves {c : Instr} {s t : State} (h : Alters c s t) : TableMoves s t := by
  cases h with
  | none => exact .refl
  | missWindow | markTimeout | choose | enables => exact TableMoves.of_frame rfl
  | port n q code =>
    exact (tableMoves_changePort s n q).trans (tableMoves_postPort _ rfl)
  | sweep f => exact (tableMoves_changePorts s f).trans (TableMoves.of_frame (tableSide_withSlipPeriod ..))
  | evaluate turn => exact (tableMoves_evaluate s turn).trans (TableMoves.of_frame (tableSide_withInterval ..))
  | expireWaits turn => exact tableMoves_foldl (tableMoves_expireWait turn) _ s
  | fetch hc e rest h => exact .single (.fetch e rest h)
  | install q p id hc hp hfree hid => exact .single (.create id q p hp hfree hid)
  | record act hact id r hid hr => exact hact.tableMoves hr
  | deviceReset => exact tableMoves_doDeviceReset s

theorem tableSide_of_inner {s t : State} (h : inner t = inner s) : tableSide t = tableSide s := by
  obtain ⟨-, -, -, -, hrecords, hmap, hselections, hcontexts, hlist, -⟩ := inner_eq_iff.mp h
  exact tableSide_eq_iff.mpr ⟨hrecords, hmap, hselections, hcontexts, hlist⟩

theorem Effect.tableMoves {c : Instr} {s t : State} (h : Effect c s t) : TableMoves s t := by
  obtain ⟨u, v, hmarks, hchange, hfinish⟩ := h
  have hu : TableMoves s u := by
    obtain ⟨-, h⟩ | rfl := hmarks
    · exact marks_preserve (P := TableMoves s) (fun _ _ h hs => hs.trans h.tableMoves) h .refl
    · exact .refl
  exact (hu.trans hchange.tableMoves).trans (TableMoves.of_frame (tableSide_of_inner hfinish.keeps_inner))

end Sys2Proof.Proofs
end

section
/-! PROOFS. The tables stay in canonical form, and contexts and the attention list stay sane (O58). -/

namespace Sys2Proof.Proofs

open Sys2Proof Sys2Proof.Machine

/-! ### Written selections (R97) -/

theorem txKey_inj {port : PortNo} {a b : Nat} (h : txKey port a = txKey port b) : a = b :=
  Nat.add_left_cancel h

theorem selectionAt_ne_idle (r : Record) (f : Feed) (k : Nat) : r.selectionAt f k ≠ .idle := by
  unfold Record.selectionAt
  split <;> simp

/-- One slot after another: those written so far have their selections. -/
theorem get_writeSlots (r : Record) (f : Feed) (e : End) (t : Table Selection) (n j : Nat) :
    (((List.range n).foldl (fun t k => t.put (txKey e.port (e.first + k)) (r.selectionAt f k)) t).get j =
        t.get j ∧ ∀ k < n, j ≠ txKey e.port (e.first + k)) ∨
      ∃ k < n, j = txKey e.port (e.first + k) ∧ ((List.range n).foldl
        (fun t k => t.put (txKey e.port (e.first + k)) (r.selectionAt f k)) t).get j =
          some (r.selectionAt f k) := by
  induction n with
  | zero => exact .inl ⟨rfl, fun k hk => absurd hk (Nat.not_lt_zero k)⟩
  | succ n ih =>
    rw [List.range_succ, List.foldl_append, List.foldl_cons, List.foldl_nil]
    by_cases hj : j = txKey e.port (e.first + n)
    · refine .inr ⟨n, Nat.lt_succ_self n, hj, ?_⟩
      rw [hj]
      exact Table.get_put_same ..
    · rw [Table.get_put_ne _ _ hj]
      obtain ⟨hget, hne⟩ | ⟨k, hk, hjk, hget⟩ := ih
      · refine .inl ⟨hget, fun k hk => ?_⟩
        obtain hk | rfl := Nat.lt_succ_iff_lt_or_eq.mp hk
        · exact hne k hk
        · exact hj
      · exact .inr ⟨k, Nat.lt_succ_of_lt hk, hjk, hget⟩

theorem mem_txKeys {width : Nat} {e : End} {j : Nat} :
    j ∈ e.txKeys width ↔ ∃ k < width, j = txKey e.port (e.first + k) := by
  simp only [End.txKeys, End.slots, List.map_map, List.mem_map, List.mem_range, Function.comp_apply]
  exact exists_congr fun k => and_congr_right fun _ => eq_comm

/-- The slot at an offset of the end has the feed's selection. -/
theorem get_writeEnd_slot (r : Record) (f : Feed) (e : End) (t : Table Selection) {k : Nat} (hk : k < r.width) :
    (writeEnd r f e t).get (txKey e.port (e.first + k)) = some (r.selectionAt f k) := by
  obtain ⟨-, hne⟩ | ⟨j, -, hj, hget⟩ := get_writeSlots r f e t r.width (txKey e.port (e.first + k))
  · exact absurd rfl (hne k hk)
  · cases Nat.add_left_cancel (txKey_inj hj)
    exact hget

/-- Every other slot keeps its selection. -/
theorem get_writeEnd_other (r : Record) (f : Feed) (e : End) (t : Table Selection) {j : Nat}
    (hj : j ∉ e.txKeys r.width) : (writeEnd r f e t).get j = t.get j := by
  obtain ⟨hget, -⟩ | ⟨k, hk, hjk, -⟩ := get_writeSlots r f e t r.width j
  · exact hget
  · exact absurd (mem_txKeys.mpr ⟨k, hk, hjk⟩) hj

theorem wf_writeEnd {t : Table Selection} (h : t.wf) (r : Record) (f : Feed) (e : End) :
    (writeEnd r f e t).wf := by
  unfold writeEnd
  induction List.range r.width generalizing t with
  | nil => exact h
  | cons k l ih => exact ih (Table.wf_put h _ _)

/-- A listed selection of a table after an end is written: a new one, on the end's slots, or an old one. -/
theorem get_writeEnd_some {r : Record} {f : Feed} {e : End} {t : Table Selection} {j : Nat} {sel : Selection}
    (h : (writeEnd r f e t).get j = some sel) :
    (j ∈ e.txKeys r.width ∧ sel ≠ .idle) ∨ t.get j = some sel := by
  by_cases hj : j ∈ e.txKeys r.width
  · obtain ⟨k, hk, rfl⟩ := mem_txKeys.mp hj
    rw [get_writeEnd_slot r f e t hk] at h
    cases h
    exact .inl ⟨hj, selectionAt_ne_idle r f k⟩
  · rw [get_writeEnd_other r f e t hj] at h
    exact .inr h

/-- The destinations written one after another. -/
def writeDests (r : Record) (f : Feed) (l : List Dest) (t : Table Selection) : Table Selection :=
  l.foldl (fun t d => writeEnd r f d.dest t) t

theorem writeRecord_eq (r : Record) (c : Option Context) (t : Table Selection) : writeRecord r c t =
    match r.feedBA with
    | some f => writeEnd r f r.source (writeDests r (r.feedAB c) r.dests t)
    | none => writeDests r (r.feedAB c) r.dests t := rfl

theorem wf_writeDests {t : Table Selection} (h : t.wf) (r : Record) (f : Feed) (l : List Dest) :
    (writeDests r f l t).wf := by
  induction l generalizing t with
  | nil => exact h
  | cons d l ih => exact ih (wf_writeEnd h r f d.dest)

theorem wf_writeRecord {t : Table Selection} (h : t.wf) (r : Record) (c : Option Context) :
    (writeRecord r c t).wf := by
  rw [writeRecord_eq]
  split
  · exact wf_writeEnd (wf_writeDests h ..) ..
  · exact wf_writeDests h ..

theorem get_writeDests_some {r : Record} {f : Feed} {l : List Dest} {t : Table Selection} {j : Nat}
    {sel : Selection} (h : (writeDests r f l t).get j = some sel) :
    (j ∈ l.flatMap (fun d => d.dest.txKeys r.width) ∧ sel ≠ .idle) ∨ t.get j = some sel := by
  induction l generalizing t with
  | nil => exact .inr h
  | cons d l ih =>
    rw [List.flatMap_cons, List.mem_append]
    obtain ⟨hmem, hne⟩ | h := ih h
    · exact .inl ⟨.inr hmem, hne⟩
    · obtain ⟨hmem, hne⟩ | h := get_writeEnd_some h
      · exact .inl ⟨.inl hmem, hne⟩
      · exact .inr h

theorem feedBA_some {r : Record} {f : Feed} (h : r.feedBA = some f) : r.kind = .duplex := by
  unfold Record.feedBA at h
  split at h
  · assumption
  · cases h

/-- A listed selection after a record is written: a new one, on its transmit slots, or an old one. -/
theorem get_writeRecord_some {r : Record} {c : Option Context} {t : Table Selection} {j : Nat}
    {sel : Selection} (h : (writeRecord r c t).get j = some sel) :
    (j ∈ r.txKeys ∧ sel ≠ .idle) ∨ t.get j = some sel := by
  rw [writeRecord_eq] at h
  simp only [Record.txKeys, List.mem_append]
  split at h
  case h_1 f hf =>
    obtain ⟨hmem, hne⟩ | h := get_writeEnd_some h
    · exact .inl ⟨.inr (by rwa [if_pos (feedBA_some hf)]), hne⟩
    · obtain ⟨hmem, hne⟩ | h := get_writeDests_some h
      · exact .inl ⟨.inl hmem, hne⟩
      · exact .inr h
  case h_2 =>
    obtain ⟨hmem, hne⟩ | h := get_writeDests_some h
    · exact .inl ⟨.inl hmem, hne⟩
    · exact .inr h

/-! ### Canonical tables -/

theorem mem_iff_get {α : Type} {t : Table α} (h : t.wf) {k : Nat} {v : α} : (k, v) ∈ t ↔ t.get k = some v :=
  ⟨Table.mem_get h, Table.get_some_mem⟩

theorem id_lt {s : State} (h : s.TablesWf) {id : Nat} {r : Record} (hr : s.records.get id = some r) :
    id < 512 := h.ids _ (Table.get_some_mem hr)

theorem context_lt {s : State} (h : s.TablesWf) {k : Nat} {c : Context} (hk : s.contexts.get k = some c) :
    k < Config.contexts := h.contextNumbers _ (Table.get_some_mem hk)

theorem forall_mem_put {α : Type} {P : Nat × α → Prop} {t : Table α} {k : Nat} {v : α} (h : ∀ e ∈ t, P e)
    (hv : P (k, v)) : ∀ e ∈ t.put k v, P e := by
  intro e he
  obtain rfl | he := Table.mem_put he
  · exact hv
  · exact h e he

theorem forall_mem_filter {α : Type} {P : Nat × α → Prop} {t : Table α} {f : Nat × α → Bool}
    (h : ∀ e ∈ t, P e) : ∀ e ∈ t.filter f, P e := fun e he => h e (List.mem_of_mem_filter he)

theorem forall_mem_mapValues {α : Type} {P : Nat × α → Prop} {t : Table α} {f : Nat → α → α}
    (h : ∀ e ∈ t, P (e.1, f e.1 e.2)) : ∀ e ∈ t.mapValues f, P e := by
  intro e he
  obtain ⟨x, hx, rfl⟩ := List.mem_map.mp he
  exact h x hx

/-- The invariant reads the four tables. -/
theorem tablesWf_congr {s t : State} (h : s.TablesWf) (ht : tableSide t = tableSide s) : t.TablesWf := by
  obtain ⟨hr, hm, hs, hc, -⟩ := tableSide_eq_iff.mp ht
  obtain ⟨records, slotMap, selections, contexts, noIdle, ids, numbers⟩ := h
  constructor
  case records | ids => rwa [hr]
  case slotMap => rwa [hm]
  case selections | noIdle => rwa [hs]
  case contexts | contextNumbers => rwa [hc]

theorem tablesWf_setRecord {s : State} (h : s.TablesWf) {id : Nat} (hid : id < 512) (r : Record) :
    (s.setRecord id r).TablesWf :=
  { h with records := Table.wf_put h.records _ _, ids := forall_mem_put h.ids hid }

theorem tablesWf_reserve {s : State} (h : s.TablesWf) (ts : List Triple) (id : Nat) :
    (s.reserve ts id).TablesWf := { h with slotMap := Table.wf_putKeys h.slotMap _ _ }

theorem tablesWf_withContext {s : State} (h : s.TablesWf) {k : Nat} (hk : k < Config.contexts) (c : Context) :
    ({ s with contexts := s.contexts.put k c } : State).TablesWf :=
  { h with contexts := Table.wf_put h.contexts _ _, contextNumbers := forall_mem_put h.contextNumbers hk }

theorem tablesWf_unbind {s : State} (h : s.TablesWf) (k : Option Nat) : (s.unbind k).TablesWf := by
  cases k with
  | none => exact h
  | some k =>
    exact { h with contexts := Table.wf_del h.contexts _, contextNumbers := forall_mem_filter h.contextNumbers }

theorem tablesWf_freeRecord {s : State} (h : s.TablesWf) (id : Nat) (r : Record) :
    (s.freeRecord id r).TablesWf := by
  have hunbind := tablesWf_unbind h r.context
  refine { hunbind with
    records := Table.wf_del h.records _
    slotMap := Table.wf_delValue h.slotMap _
    ids := forall_mem_filter h.ids }

theorem tablesWf_installed {s : State} (h : s.TablesWf) {id : Nat} {r : Record}
    (hr : s.records.get id = some r) : (installed s id r).TablesWf := by
  have hwf : (setSelections s.selections .idle (r.goingDests.flatMap fun d => d.dest.txKeys r.width)).wf :=
    Table.wf_delKeys h.selections _
  have hwritten := wf_writeRecord hwf r.completed ((s.contextOf r).map Prod.snd)
  have hset := tablesWf_setRecord h (id_lt h hr) r.completed
  refine { hset with
    slotMap := Table.wf_delKeys h.slotMap _
    selections := hwritten
    noIdle := ?_ }
  rintro ⟨j, sel⟩ he
  obtain ⟨-, hne⟩ | hold := get_writeRecord_some (Table.mem_get hwritten he)
  · exact hne
  · exact forall_mem_filter h.noIdle _ (Table.get_some_mem hold)

theorem TableMove.keeps_tablesWf {s t : State} (hmove : TableMove s t) (h : s.TablesWf) : t.TablesWf := by
  cases hmove with
  | frame t ht => exact tablesWf_congr h ht
  | rewrite id r r' hr _ => exact tablesWf_setRecord h (id_lt h hr) r'
  | commit k c c' hk => exact tablesWf_withContext h (context_lt h hk) c'
  | tick f =>
    exact { h with
      contexts := Table.wf_mapValues h.contexts _
      contextNumbers := forall_mem_mapValues h.contextNumbers }
  | post x c => exact { h with }
  | extend id r r' ts hr => exact tablesWf_reserve (tablesWf_setRecord h (id_lt h hr) r') ts id
  | bind id k r r' ts c hr _ _ _ _ _ _ hk =>
    obtain ⟨hlt, -⟩ := Table.lowestFree_spec hk
    exact tablesWf_withContext (tablesWf_reserve (tablesWf_setRecord h (id_lt h hr) r') ts id) hlt c
  | unbind id k r r' hr => exact tablesWf_setRecord (tablesWf_unbind h _) (id_lt h hr) r'
  | create id q p _ _ hid =>
    obtain ⟨hlt, -⟩ := Table.lowestFree_spec hid
    have hnew := tablesWf_reserve (tablesWf_setRecord h hlt (newRecord q p)) (newRecord q p).triples id
    exact { hnew with }
  | discard id r => exact tablesWf_freeRecord h id r
  | retireFrame id r =>
    have hfree := tablesWf_freeRecord h id r
    exact { hfree with selections := Table.wf_delKeys h.selections _, noIdle := forall_mem_filter h.noIdle }
  | installFrame id r hr => exact tablesWf_installed h hr
  | fetch => exact { h with }
  | clear t hr hm hs hc _ =>
    constructor
    case records => rw [hr]; exact Table.wf_nil
    case slotMap => rw [hm]; exact Table.wf_nil
    case selections => rw [hs]; exact Table.wf_nil
    case contexts => rw [hc]; exact Table.wf_nil
    case noIdle => rw [hs]; intro e he; cases he
    case ids => rw [hr]; intro e he; cases he
    case contextNumbers => rw [hc]; intro e he; cases he

/-! ### Contexts -/

theorem contextsSane_congr {s t : State} (h : s.ContextsSane) (hc : t.contexts = s.contexts) :
    t.ContextsSane := by
  intro e he
  rw [hc] at he
  exact h e he

theorem contextsSane_unbind {s : State} (h : s.ContextsSane) (k : Option Nat) : (s.unbind k).ContextsSane := by
  cases k with
  | none => exact h
  | some k => exact forall_mem_filter h

theorem TableMove.keeps_contextsSane {s t : State} (hmove : TableMove s t) (h : s.ContextsSane) :
    t.ContextsSane := by
  cases hmove with
  | frame t ht => exact contextsSane_congr h (tableSide_eq_iff.mp ht).2.2.2.1
  | commit k c c' hk hinv => exact forall_mem_put h (hinv (h _ (Table.get_some_mem hk)))
  | tick f hinv => exact forall_mem_mapValues fun e he => hinv e.1 e.2 (h e he)
  | bind id k r r' ts c _ _ _ _ _ _ _ _ hc => exact forall_mem_put h hc
  | unbind id k => exact contextsSane_unbind h (some k)
  | discard id r | retireFrame id r => exact contextsSane_unbind h r.context
  | clear t _ _ _ hc => exact contextsSane_congr (s := { s with contexts := [] }) (fun e he => by cases he) hc
  | rewrite | post | extend | create | installFrame | fetch => exact h

/-! ### The attention list -/

/-- The list without its tables: no subject twice, and every entry with kinds of its subject (R162). -/
def ListSane (l : List Entry) : Prop := (l.map Entry.subject).Nodup ∧ ∀ e ∈ l, e.Sane

theorem sane_add_record {id : Nat} {m : Summary} {c : Change} (hid : id < 512) (hc : ofRecord c = true)
    (hm : m = Summary.empty ∨ (⟨.record id, m⟩ : Entry).Sane) : (⟨.record id, m.add c⟩ : Entry).Sane := by
  refine ⟨hid, ?_⟩
  obtain rfl | ⟨-, hhas, hnot⟩ := hm
  · cases c <;> cases hc <;> simp [Summary.add, Summary.empty]
  · cases c <;> cases hc <;> simp_all [Summary.add]

theorem sane_add_port {n : PortNo} {m : Summary} {c : Change} (hc : ofRecord c = false)
    (hm : m = Summary.empty ∨ (⟨.port n, m⟩ : Entry).Sane) : (⟨.port n, m.add c⟩ : Entry).Sane := by
  simp only [Entry.Sane] at hm ⊢
  obtain rfl | ⟨hhas, hnot⟩ := hm
  · cases c <;> cases hc <;> decide
  · cases c <;> cases hc <;> simp_all [Summary.add]

theorem listSane_post {l : List Entry} (h : ListSane l) {x : Subject} {c : Change}
    (hx : ∀ m, m = Summary.empty ∨ (⟨x, m⟩ : Entry).Sane → (⟨x, m.add c⟩ : Entry).Sane) :
    ListSane (postTo l x c) := by
  refine ⟨postTo_nodup h.1 x c, fun e he => ?_⟩
  obtain he | ⟨hsubject, m, hsummary, hm⟩ := mem_postTo he
  · exact h.2 e he
  · obtain ⟨subject, summary⟩ := e
    cases hsubject
    cases hsummary
    exact hx m (hm.imp_right (h.2 _))

theorem listSane_filter {l : List Entry} (h : ListSane l) (f : Entry → Bool) : ListSane (l.filter f) :=
  ⟨h.1.sublist (List.filter_sublist.map _), fun e he => h.2 e (List.mem_of_mem_filter he)⟩

theorem TableMove.keeps_listSane {s t : State} (hmove : TableMove s t) (htables : s.TablesWf)
    (h : ListSane s.attention) : ListSane t.attention := by
  cases hmove with
  | frame t ht => rw [(tableSide_eq_iff.mp ht).2.2.2.2]; exact h
  | post x c hx =>
    cases x with
    | record id =>
      obtain ⟨hc, r, hr⟩ := hx
      exact listSane_post h fun m => sane_add_record (id_lt htables hr) hc
    | port n => exact listSane_post h fun m => sane_add_port hx
  | create id q p => exact listSane_filter h _
  | unbind id k r r' => rw [attention_setRecord, attention_unbind]; exact h
  | discard id r => rw [attention_freeRecord]; exact h
  | retireFrame id r hr =>
    have hpost := listSane_post h (x := .record id) (c := .state) fun m => sane_add_record (id_lt htables hr) rfl
    rw [← attention_freeRecord s id r] at hpost
    exact hpost
  | fetch e rest hl =>
    rw [hl] at h
    exact ⟨(List.nodup_cons.mp h.1).2, fun e he => h.2 e (List.mem_cons_of_mem _ he)⟩
  | clear t _ _ _ _ hl =>
    rw [hl]
    exact ⟨List.nodup_nil, fun e he => by cases he⟩
  | rewrite | commit | tick | extend | bind | installFrame => exact h

theorem listInv_iff {s : State} : s.ListInv ↔ s.TablesWf ∧ ListSane s.attention :=
  ⟨fun h => ⟨h.tables, h.once, h.kinds⟩, fun h => ⟨h.1, h.2.1, h.2.2⟩⟩

theorem TableMove.keeps_orderly {s t : State} (hmove : TableMove s t) (h : s.ContextsSane ∧ s.ListInv) :
    t.ContextsSane ∧ t.ListInv := by
  obtain ⟨hcontexts, hlist⟩ := h
  obtain ⟨htables, hsane⟩ := listInv_iff.mp hlist
  exact ⟨hmove.keeps_contextsSane hcontexts,
    listInv_iff.mpr ⟨hmove.keeps_tablesWf htables, hmove.keeps_listSane htables hsane⟩⟩

/-! ### Empty tables -/

/-- A state with nothing in its tables and its list. -/
structure Bare (s : State) : Prop where
  records : s.records = []
  slotMap : s.slotMap = []
  selections : s.selections = []
  contexts : s.contexts = []
  attention : s.attention = []

theorem bare_powerOn (s : State) : Bare s.powerOn := ⟨rfl, rfl, rfl, rfl, rfl⟩

theorem bare_reset : Bare State.reset := ⟨rfl, rfl, rfl, rfl, rfl⟩

theorem tablesWf_bare {s : State} (h : Bare s) : s.TablesWf := by
  obtain ⟨records, slotMap, selections, contexts, -⟩ := h
  constructor <;> simp [*]

theorem orderly_bare {s : State} (h : Bare s) : s.ContextsSane ∧ s.ListInv := by
  have hl := h.attention
  have hc := h.contexts
  refine ⟨fun e he => ?_, listInv_iff.mpr ⟨tablesWf_bare h, ?_⟩⟩
  · rw [hc] at he
    cases he
  · rw [hl]
    exact ⟨List.nodup_nil, fun e he => by cases he⟩

theorem TableMove.withQueue (s : State) (q : List Instr) : TableMove s { s with pending := q } := .frame _ rfl

/-- Settles O58: every move of the tables, and the empty tables of power-on. -/
theorem stepKeepsContextsAndListSane : Obligations.StepKeepsContextsAndListSane :=
  stepKeeps_of_effect
    (fun s q h => (TableMove.withQueue s q).keeps_orderly h)
    (fun _ _ _ hs h => h.tableMoves.preserve (fun _ _ => TableMove.keeps_orderly) hs)
    fun s _ => orderly_bare (bare_powerOn s)

end Sys2Proof.Proofs
end

section
/-! PROOFS. Records, slot map, selections and contexts name each other at every step (O57), and the state
after reset is sane (O60). -/

namespace Sys2Proof.Proofs

open Sys2Proof Sys2Proof.Machine

/-! ### The invariant by what the tables read as -/

/-- The slot map gives each key to the record that holds it, and no other (R58). -/
def Owns (records : Table Record) (map : Table Nat) : Prop :=
  ∀ key id, map.get key = some id ↔ ∃ r, records.get id = some r ∧ key ∈ slotKeys r

/-- A context is the one that a record names where it names the record (R44, R125). -/
def Binds (records : Table Record) (contexts : Table Context) : Prop :=
  ∀ k id, (∃ r, records.get id = some r ∧ r.context = some k) ↔ ∃ c, contexts.get k = some c ∧ c.record = id

/-- A selection stands on a slot of an installed record (R52, R92). -/
def Selected (records : Table Record) (map : Table Nat) (selections : Table Selection) : Prop :=
  ∀ j sel, selections.get j = some sel → ∃ id r, map.get (16 * Config.frameSlots + j) = some id ∧
    records.get id = some r ∧ r.state ≠ .staged

/-- Records that are sane, and tables that name each other. -/
structure Linked (s : State) : Prop where
  tables : s.TablesWf
  inv : ∀ id r, s.records.get id = some r → r.Inv
  owns : Owns s.records s.slotMap
  selected : Selected s.records s.slotMap s.selections
  binds : Binds s.records s.contexts

theorem linked_iff {s : State} : Linked s ↔ s.MapInv ∧ s.BindInv := by
  constructor
  · rintro ⟨tables, inv, owns, selected, binds⟩
    refine ⟨⟨tables, ?_, ?_, ?_, ?_⟩, tables, ?_, ?_⟩
    · rintro ⟨id, r⟩ he
      exact inv id r (Table.mem_get tables.records he)
    · rintro ⟨id, r⟩ he t ht
      exact (owns t.key id).mpr ⟨r, Table.mem_get tables.records he, List.mem_map_of_mem ht⟩
    · rintro ⟨key, id⟩ hm
      obtain ⟨r, hr, hkey⟩ := (owns key id).mp (Table.mem_get tables.slotMap hm)
      exact ⟨(id, r), Table.get_some_mem hr, rfl, hkey⟩
    · rintro ⟨j, sel⟩ he
      exact selected j sel (Table.mem_get tables.selections he)
    · rintro ⟨id, r⟩ he k hk
      exact (binds k id).mp ⟨r, Table.mem_get tables.records he, hk⟩
    · rintro ⟨k, c⟩ he
      exact (binds k c.record).mpr ⟨c, Table.mem_get tables.contexts he, rfl⟩
  · rintro ⟨⟨tables, records, held, named, selected⟩, -, bound, binds⟩
    refine ⟨tables, fun id r hr => records _ (Table.get_some_mem hr), fun key id => ⟨fun hm => ?_, ?_⟩,
      fun j sel hj => selected _ (Table.get_some_mem hj), fun k id => ⟨?_, ?_⟩⟩
    · obtain ⟨⟨id', r⟩, he, rfl, hkey⟩ := named _ (Table.get_some_mem hm)
      exact ⟨r, Table.mem_get tables.records he, hkey⟩
    · rintro ⟨r, hr, hkey⟩
      obtain ⟨t, ht, rfl⟩ := List.mem_map.mp hkey
      exact held _ (Table.get_some_mem hr) t ht
    · rintro ⟨r, hr, hk⟩
      exact bound _ (Table.get_some_mem hr) k hk
    · rintro ⟨c, hc, rfl⟩
      exact binds _ (Table.get_some_mem hc)

/-! ### One record changes -/

/-- A record is put in the place of one that held `old`: its keys are given to it, and those of `old` that
it no longer holds to none. -/
theorem owns_put {records : Table Record} {map map' : Table Nat} {id : Nat} {r' : Record} {old : List Nat}
    (h : Owns records map) (hold : ∀ key, map.get key = some id ↔ key ∈ old)
    (hmap : ∀ key, map'.get key = if key ∈ slotKeys r' then some id else if key ∈ old then none else map.get key)
    (hfree : ∀ key ∈ slotKeys r', key ∈ old ∨ map.get key = none) : Owns (records.put id r') map' := by
  intro key j
  rw [hmap, Table.get_put]
  by_cases hj : j = id
  · subst hj
    rw [if_pos rfl]
    split
    case isTrue hk => exact ⟨fun _ => ⟨r', rfl, hk⟩, fun _ => rfl⟩
    case isFalse hk =>
      refine ⟨fun hget => ?_, ?_⟩
      · split at hget
        · cases hget
        · exact absurd ((hold key).mp hget) ‹_›
      · rintro ⟨r, hr, hkey⟩
        cases hr
        exact absurd hkey hk
  · rw [if_neg hj, ← h key j]
    split
    case isTrue hk =>
      refine ⟨fun hget => absurd (Option.some.inj hget).symm hj, fun hget => ?_⟩
      obtain hmem | hnone := hfree key hk
      · rw [(hold key).mpr hmem] at hget
        exact absurd (Option.some.inj hget).symm hj
      · rw [hnone] at hget
        cases hget
    case isFalse hk =>
      split
      case isTrue ho =>
        refine ⟨fun hget => (by cases hget), fun hget => ?_⟩
        rw [(hold key).mpr ho] at hget
        exact absurd (Option.some.inj hget).symm hj
      case isFalse => exact Iff.rfl

/-- What a record that is there holds. -/
theorem owns_keys {records : Table Record} {map : Table Nat} (h : Owns records map) {id : Nat} {r : Record}
    (hr : records.get id = some r) (key : Nat) : map.get key = some id ↔ key ∈ slotKeys r := by
  rw [h key id]
  constructor
  · rintro ⟨r', hr', hkey⟩
    rw [hr] at hr'
    cases hr'
    exact hkey
  · exact fun hkey => ⟨r, hr, hkey⟩

/-- Selections after a record is put: new ones on its own slots, the others on slots that `old` did not
have. -/
theorem selected_put {records : Table Record} {map map' : Table Nat} {selections selections' : Table Selection}
    {id : Nat} {r' : Record} {old : List Nat} (h : Owns records map) (hsel : Selected records map selections)
    (hold : ∀ key, map.get key = some id ↔ key ∈ old) (howns : Owns (records.put id r') map')
    (hnew : ∀ j sel, selections'.get j = some sel →
      (16 * Config.frameSlots + j ∈ slotKeys r' ∧ r'.state ≠ .staged) ∨
        (selections.get j = some sel ∧ 16 * Config.frameSlots + j ∉ old)) :
    Selected (records.put id r') map' selections' := by
  intro j sel hj
  obtain ⟨hkey, hstate⟩ | ⟨hjold, hnot⟩ := hnew j sel hj
  · exact ⟨id, r', (howns _ id).mpr ⟨r', Table.get_put_same .., hkey⟩, Table.get_put_same .., hstate⟩
  · obtain ⟨id1, r1, hmap1, hr1, hstate⟩ := hsel j sel hjold
    have hne : id1 ≠ id := by
      rintro rfl
      exact hnot ((hold _).mp hmap1)
    have hr1' : (records.put id r').get id1 = some r1 := by rw [Table.get_put_ne _ _ hne]; exact hr1
    exact ⟨id1, r1, (howns _ id1).mpr ⟨r1, hr1', (owns_keys h hr1 _).mp hmap1⟩, hr1', hstate⟩

/-- Selections stay where the record's keys grow and it does not become STAGED. -/
theorem selected_grown {records : Table Record} {map map' : Table Nat} {selections : Table Selection}
    {id : Nat} {r r' : Record} (h : Owns records map) (hsel : Selected records map selections)
    (hr : records.get id = some r) (howns : Owns (records.put id r') map')
    (hkeys : ∀ key ∈ slotKeys r, key ∈ slotKeys r') (hstate : r'.state = .staged → r.state = .staged) :
    Selected (records.put id r') map' selections := by
  refine selected_put h hsel (owns_keys h hr) howns fun j sel hj => ?_
  obtain ⟨id1, r1, hmap1, hr1, hstate1⟩ := hsel j sel hj
  by_cases hmem : 16 * Config.frameSlots + j ∈ slotKeys r
  · rw [(owns_keys h hr _).mpr hmem] at hmap1
    cases hmap1
    rw [hr] at hr1
    cases hr1
    exact .inl ⟨hkeys _ hmem, fun hs => hstate1 (hstate hs)⟩
  · exact .inr ⟨hj, hmem⟩

theorem inv_put {records : Table Record} {id : Nat} {r' : Record} (h : ∀ j r, records.get j = some r → r.Inv)
    (hr' : r'.Inv) : ∀ j r, (records.put id r').get j = some r → r.Inv := by
  intro j r hj
  rw [Table.get_put] at hj
  split at hj
  · cases hj
    exact hr'
  · exact h j r hj

/-- A record with the same context, or none at the number of a new one. -/
theorem binds_put {records : Table Record} {contexts : Table Context} {id : Nat} {r' : Record}
    (h : Binds records contexts)
    (hcontext : ∀ k, r'.context = some k ↔ ∃ r, records.get id = some r ∧ r.context = some k) :
    Binds (records.put id r') contexts := by
  intro k j
  rw [← h k j, Table.get_put]
  split
  case isTrue hj =>
    subst hj
    rw [← hcontext k]
    simp
  case isFalse => exact Iff.rfl

theorem binds_same {records : Table Record} {contexts : Table Context} {id : Nat} {r r' : Record}
    (h : Binds records contexts) (hr : records.get id = some r) (hcontext : r'.context = r.context) :
    Binds (records.put id r') contexts :=
  binds_put h fun k => by simp [hr, hcontext]

/-! ### The moves -/

theorem linked_congr {s t : State} (h : Linked s) (ht : tableSide t = tableSide s) : Linked t := by
  obtain ⟨hr, hm, hs, hc, -⟩ := tableSide_eq_iff.mp ht
  obtain ⟨tables, inv, owns, selected, binds⟩ := h
  refine ⟨tablesWf_congr tables ht, ?_, ?_, ?_, ?_⟩
  · rwa [hr]
  · rwa [hr, hm]
  · rwa [hr, hm, hs]
  · rwa [hr, hc]

/-- The list apart, the tables are all that is read. -/
theorem linked_withAttention {s : State} (h : Linked s) (l : List Entry) :
    Linked { s with attention := l } :=
  ⟨{ h.tables with }, h.inv, h.owns, h.selected, h.binds⟩

theorem slotKeys_congr {r r' : Record} (h : r'.triples = r.triples) : slotKeys r' = slotKeys r := by
  rw [slotKeys, h, slotKeys]

theorem linked_rewrite {s : State} (h : Linked s) {id : Nat} {r r' : Record} (hr : s.records.get id = some r)
    (hrw : Rewrites r r') : Linked (s.setRecord id r') := by
  have hkeys := slotKeys_congr hrw.triples
  have howns : Owns (s.records.put id r') s.slotMap := by
    refine owns_put h.owns (owns_keys h.owns hr) (fun key => ?_) fun key hkey => .inl (hkeys ▸ hkey)
    rw [hkeys]
    split
    case isTrue hk => exact (owns_keys h.owns hr key).mpr hk
    case isFalse => rfl
  exact ⟨tablesWf_setRecord h.tables (id_lt h.tables hr) r', inv_put h.inv (hrw.inv (h.inv id r hr)), howns,
    selected_grown h.owns h.selected hr howns (fun key hk => hkeys ▸ hk) hrw.staged,
    binds_same h.binds hr hrw.context⟩

/-- New triples reserved for a record that is there. -/
theorem owns_extended {s : State} (h : Linked s) {id : Nat} {r r' : Record} {ts : List Triple}
    (hr : s.records.get id = some r) (htriples : r'.triples.Perm (r.triples ++ ts))
    (hfree : ∀ u ∈ ts, s.slotMap.get u.key = none) :
    Owns (s.records.put id r') (s.slotMap.putKeys (ts.map Triple.key) id) ∧
      ∀ key, key ∈ slotKeys r' ↔ key ∈ slotKeys r ∨ key ∈ ts.map Triple.key := by
  have hmem : ∀ key, key ∈ slotKeys r' ↔ key ∈ slotKeys r ∨ key ∈ ts.map Triple.key := by
    intro key
    rw [slotKeys, (htriples.map Triple.key).mem_iff, List.map_append, List.mem_append, slotKeys]
  refine ⟨owns_put h.owns (owns_keys h.owns hr) (fun key => ?_) fun key hkey => ?_, hmem⟩
  · rw [Table.get_putKeys]
    by_cases ht : key ∈ ts.map Triple.key
    · rw [if_pos ht, if_pos ((hmem key).mpr (.inr ht))]
    · rw [if_neg ht]
      by_cases hk : key ∈ slotKeys r
      · rw [if_pos ((hmem key).mpr (.inl hk)), (owns_keys h.owns hr key).mpr hk]
      · rw [if_neg fun hk' => ((hmem key).mp hk').elim hk ht, if_neg hk]
  · obtain hk | ht := (hmem key).mp hkey
    · exact .inl hk
    · obtain ⟨u, hu, rfl⟩ := List.mem_map.mp ht
      exact .inr (hfree u hu)

theorem linked_extend {s : State} (h : Linked s) {id : Nat} {r r' : Record} {ts : List Triple}
    (hr : s.records.get id = some r) (hinv : r.Inv → r'.Inv) (htriples : r'.triples.Perm (r.triples ++ ts))
    (hfree : ∀ u ∈ ts, s.slotMap.get u.key = none) (hcontext : r'.context = r.context)
    (hstate : r'.state = r.state) : Linked ((s.setRecord id r').reserve ts id) := by
  obtain ⟨howns, hmem⟩ := owns_extended h hr htriples hfree
  exact ⟨tablesWf_reserve (tablesWf_setRecord h.tables (id_lt h.tables hr) r') ts id,
    inv_put h.inv (hinv (h.inv id r hr)), howns,
    selected_grown h.owns h.selected hr howns (fun key hk => (hmem key).mpr (.inl hk)) (hstate ▸ ·),
    binds_same h.binds hr hcontext⟩

/-- A context that keeps its record. -/
theorem binds_commit {s : State} (h : Linked s) {k : Nat} {c c' : Context} (hk : s.contexts.get k = some c)
    (hrecord : c'.record = c.record) : Binds s.records (s.contexts.put k c') := by
  intro j id
  rw [h.binds j id, Table.get_put]
  split
  case isTrue hj =>
    subst hj
    simp [hk, hrecord]
  case isFalse => exact Iff.rfl

theorem linked_bind {s : State} (h : Linked s) {id k : Nat} {r r' : Record} {ts : List Triple} {c : Context}
    (hr : s.records.get id = some r) (hinv : r.Inv → r'.Inv) (htriples : r.Inv → r'.triples = r.triples ++ ts)
    (hfree : ∀ u ∈ ts, s.slotMap.get u.key = none) (hunbound : r.context = none)
    (hcontext : r'.context = some k) (hstate : r'.state = r.state)
    (hk : s.contexts.lowestFree Config.contexts = some k) (hrecord : c.record = id) :
    Linked { ((s.setRecord id r').reserve ts id) with contexts := s.contexts.put k c } := by
  have hperm := List.Perm.of_eq (htriples (h.inv id r hr))
  obtain ⟨howns, hmem⟩ := owns_extended h hr hperm hfree
  obtain ⟨hlt, hnone, -⟩ := Table.lowestFree_spec hk
  refine ⟨tablesWf_withContext (tablesWf_reserve (tablesWf_setRecord h.tables (id_lt h.tables hr) r') ts id) hlt c,
    inv_put h.inv (hinv (h.inv id r hr)), howns,
    selected_grown h.owns h.selected hr howns (fun key hk => (hmem key).mpr (.inl hk)) (hstate ▸ ·), ?_⟩
  intro j i
  change (∃ r1, (s.records.put id r').get i = some r1 ∧ r1.context = some j) ↔
    ∃ c1, (s.contexts.put k c).get j = some c1 ∧ c1.record = i
  have hold := h.binds j i
  rw [Table.get_put, Table.get_put]
  by_cases hi : i = id <;> by_cases hj : j = k
  · subst hi hj
    simp [hcontext, hrecord]
  · subst hi
    rw [if_pos rfl, if_neg hj, ← hold]
    simp [hcontext, hr, hunbound, Ne.symm hj]
  · subst hj
    rw [if_neg hi, if_pos rfl, hold, hnone]
    simp [hrecord, Ne.symm hi]
  · rw [if_neg hi, if_neg hj]
    exact hold

theorem binds_unbind {s : State} (h : Linked s) {id k : Nat} {r r' : Record}
    (hr : s.records.get id = some r) (hk : r.context = some k) (hcontext : r'.context = none) :
    Binds (s.records.put id r') (s.contexts.del k) := by
  intro j i
  have hold := h.binds j i
  obtain ⟨c, hc, hrecord⟩ := (h.binds k id).mp ⟨r, hr, hk⟩
  rw [Table.get_put, Table.get_del]
  by_cases hi : i = id <;> by_cases hj : j = k
  · subst hi hj
    simp [hcontext]
  · subst hi
    rw [if_pos rfl, if_neg hj, ← hold]
    simp [hcontext, hr, hk, Ne.symm hj]
  · subst hj
    rw [if_neg hi, if_pos rfl, hold, hc]
    simp [hrecord, Ne.symm hi]
  · rw [if_neg hi, if_neg hj]
    exact hold

theorem linked_unbind {s : State} (h : Linked s) {id k : Nat} {r r' : Record}
    (hr : s.records.get id = some r) (hk : r.context = some k) (hinv : r.Inv → r'.Inv)
    (htriples : r.Inv → r'.triples = r.triples) (hcontext : r'.context = none) (hstate : r'.state = r.state) :
    Linked ((s.unbind (some k)).setRecord id r') := by
  have hkeys := slotKeys_congr (htriples (h.inv id r hr))
  have howns : Owns (s.records.put id r') s.slotMap := by
    refine owns_put h.owns (owns_keys h.owns hr) (fun key => ?_) fun key hkey => .inl (hkeys ▸ hkey)
    rw [hkeys]
    split
    case isTrue hk => exact (owns_keys h.owns hr key).mpr hk
    case isFalse => rfl
  exact ⟨tablesWf_setRecord (tablesWf_unbind h.tables _) (id_lt h.tables hr) r',
    inv_put h.inv (hinv (h.inv id r hr)), howns,
    selected_grown h.owns h.selected hr howns (fun key hk => hkeys ▸ hk) (hstate ▸ ·),
    binds_unbind h hr hk hcontext⟩

/-- A new record on triples that no record holds (R71). -/
theorem linked_create {s : State} (h : Linked s) {id : Nat} {q : ConnectReq} {p : ConnectPlan}
    (hp : connectPlan q = some p) (hfree : ∀ u ∈ (newRecord q p).triples, s.slotMap.get u.key = none)
    (hid : s.records.lowestFree Config.records = some id) : Linked (s.install id q p) := by
  obtain ⟨hlt, hnone, -⟩ := Table.lowestFree_spec hid
  have hold : ∀ key, s.slotMap.get key = some id ↔ key ∈ ([] : List Nat) := by
    intro key
    rw [h.owns key id, hnone]
    simp
  have howns : Owns (s.records.put id (newRecord q p)) (s.slotMap.putKeys (slotKeys (newRecord q p)) id) := by
    refine owns_put h.owns hold (fun key => ?_) fun key hkey => ?_
    · rw [Table.get_putKeys]
      simp
    · obtain ⟨u, hu, rfl⟩ := List.mem_map.mp hkey
      exact .inr (hfree u hu)
  have htables := tablesWf_reserve (tablesWf_setRecord h.tables hlt (newRecord q p)) (newRecord q p).triples id
  refine linked_withAttention ⟨htables, inv_put h.inv (inv_newRecord hp), howns, ?_, ?_⟩ _
  · exact selected_put h.owns h.selected hold howns fun j sel hj => .inr ⟨hj, List.not_mem_nil⟩
  · refine binds_put h.binds fun k => ?_
    rw [hnone]
    simp [newRecord]

/-! ### A record becomes FREE -/

theorem get_delValue {α : Type} [DecidableEq α] {t : Table α} (w : t.wf) (v : α) (k : Nat) :
    (t.delValue v).get k = if t.get k = some v then none else t.get k := by
  have hmem : ∀ x, (t.delValue v).get k = some x ↔ t.get k = some x ∧ x ≠ v := by
    intro x
    rw [← mem_iff_get (Table.wf_delValue w v), ← mem_iff_get w, Table.delValue, List.mem_filter]
    simp
  refine Option.ext fun x => ?_
  rw [hmem]
  split
  case isTrue h => simp [h, eq_comm]
  case isFalse h =>
    exact ⟨fun hx => hx.1, fun hx => ⟨hx, fun hv => h (hv ▸ hx)⟩⟩

theorem contexts_freed (s : State) (id : Nat) (r : Record) :
    (s.freeRecord id r).contexts = r.context.elim s.contexts s.contexts.del := by
  simp only [State.freeRecord, State.unbind]
  cases r.context <;> rfl

theorem owns_del {records : Table Record} {map : Table Nat} (h : Owns records map) (w : map.wf) (id : Nat) :
    Owns (records.del id) (map.delValue id) := by
  intro key j
  rw [get_delValue w, Table.get_del]
  by_cases hj : j = id
  · subst hj
    rw [if_pos rfl]
    simp
  · rw [if_neg hj, ← h key j]
    split
    case isTrue hid => simp [hid, Ne.symm hj]
    case isFalse => exact Iff.rfl

theorem binds_del {s : State} (h : Linked s) {id : Nat} {r : Record} (hr : s.records.get id = some r) :
    Binds (s.records.del id) (r.context.elim s.contexts s.contexts.del) := by
  intro j i
  have hold := h.binds j i
  rw [Table.get_del]
  by_cases hi : i = id
  · subst hi
    rw [if_pos rfl]
    refine ⟨fun ⟨r1, hr1, _⟩ => (by cases hr1), ?_⟩
    rintro ⟨c, hc, hrecord⟩
    have hall : s.contexts.get j = some c := by
      cases hk : r.context with
      | none => rwa [hk] at hc
      | some k =>
        rw [hk, Option.elim_some, Table.get_del] at hc
        split at hc
        · cases hc
        · exact hc
    obtain ⟨r1, hr1, hcontext⟩ := hold.mpr ⟨c, hall, hrecord⟩
    rw [hr] at hr1
    cases hr1
    rw [hcontext, Option.elim_some, Table.get_del_same] at hc
    cases hc
  · rw [if_neg hi, hold]
    cases hk : r.context with
    | none => rfl
    | some k =>
      rw [Option.elim_some, Table.get_del]
      split
      case isTrue hj =>
        subst hj
        obtain ⟨c, hc, hrecord⟩ := (h.binds j id).mp ⟨r, hr, hk⟩
        simp [hc, hrecord, Ne.symm hi]
      case isFalse => exact Iff.rfl

/-- A record leaves the tables, and every selection on its slots with it. -/
theorem linked_free {s : State} (h : Linked s) {id : Nat} {r : Record} (hr : s.records.get id = some r)
    {keys : List Nat} (hkeys : r.state = .staged ∨ ∀ j, 16 * Config.frameSlots + j ∈ slotKeys r → j ∈ keys) :
    Linked { (s.freeRecord id r) with selections := s.selections.delKeys keys } := by
  have hfree := tablesWf_freeRecord h.tables id r
  have howns := owns_del h.owns h.tables.slotMap id
  have hbinds := binds_del h hr
  refine ⟨{ hfree with selections := Table.wf_delKeys h.tables.selections _,
                       noIdle := forall_mem_filter h.tables.noIdle }, ?_, howns, ?_, ?_⟩
  · intro j r1 hj
    change (s.records.del id).get j = some r1 at hj
    rw [Table.get_del] at hj
    split at hj
    · cases hj
    · exact h.inv j r1 hj
  · intro j sel hj
    change (s.selections.delKeys keys).get j = some sel at hj
    rw [Table.get_delKeys] at hj
    split at hj
    case isTrue => cases hj
    case isFalse hnot =>
      obtain ⟨id1, r1, hmap1, hr1, hstate⟩ := h.selected j sel hj
      have hne : id1 ≠ id := by
        rintro rfl
        rw [hr] at hr1
        cases hr1
        obtain hst | hall := hkeys
        · exact hstate hst
        · exact hnot (hall j ((owns_keys h.owns hr _).mp hmap1))
      have hr1' : (s.records.del id).get id1 = some r1 := by rw [Table.get_del, if_neg hne]; exact hr1
      exact ⟨id1, r1, (howns _ id1).mpr ⟨r1, hr1', (owns_keys h.owns hr1 _).mp hmap1⟩, hr1', hstate⟩
  · rw [← contexts_freed s id r] at hbinds
    exact hbinds

end Sys2Proof.Proofs
end

section
/-! PROOFS. A record of the set at a system frame start: the record it becomes, the triples and the selections
it gives up; then the tables at every step (O57) and after reset (O60). -/

namespace Sys2Proof.Proofs

open Sys2Proof Sys2Proof.Machine

/-! ### Transmit slots and triples -/

theorem tx_key_mem {width : Nat} {e : End} {j : Nat} :
    16 * Config.frameSlots + j ∈ (e.triples width .tx).map Triple.key ↔ j ∈ e.txKeys width := by
  rw [key_tx, List.mem_map]
  constructor
  · rintro ⟨k, hk, heq⟩
    rwa [← Nat.add_left_cancel heq]
  · exact fun hj => ⟨j, hj, rfl⟩

theorem rx_key_not_mem {width : Nat} {e : End} (h : e.InRange width) (j : Nat) :
    16 * Config.frameSlots + j ∉ (e.triples width .rx).map Triple.key := by
  intro hmem
  obtain ⟨t, ht, heq⟩ := List.mem_map.mp hmem
  have hlt := key_rx_lt (ranged_of_inRange h t ht) (mem_triples.mp ht).2.1
  omega

theorem rx_key_not_mem_opt {width : Nat} {o : Option End} (h : ∀ e, o = some e → e.InRange width) (j : Nat) :
    16 * Config.frameSlots + j ∉ (o.elim [] (End.triples width .rx)).map Triple.key := by
  cases o with
  | none => exact List.not_mem_nil
  | some e => exact rx_key_not_mem (h e rfl) j

/-- A record's transmit slots are the ones whose transmit triples it holds. -/
theorem tx_slotKeys {r : Record} (h : r.Inv) {j : Nat} :
    16 * Config.frameSlots + j ∈ slotKeys r ↔ j ∈ r.txKeys := by
  obtain ⟨hsource, hdests, hstandby, hleaving⟩ := h.ends
  have hs := rx_key_not_mem_opt hstandby j
  have hl := rx_key_not_mem_opt hleaving j
  have hsrc := rx_key_not_mem hsource j
  have htx : 16 * Config.frameSlots + j ∈
      ((r.dests.map (·.dest)).flatMap (End.triples r.width .tx)).map Triple.key ↔
        j ∈ r.dests.flatMap fun d => d.dest.txKeys r.width := by
    simp only [List.flatMap_map, List.map_flatMap, List.mem_flatMap, tx_key_mem]
  have hduplex : 16 * Config.frameSlots + j ∈ ((r.dests.map (·.dest)).flatMap fun d =>
      d.triples r.width .rx ++ d.triples r.width .tx).map Triple.key ↔
        j ∈ r.dests.flatMap fun d => d.dest.txKeys r.width := by
    simp only [List.flatMap_map, List.map_flatMap, List.map_append, List.mem_flatMap, List.mem_append, tx_key_mem]
    exact exists_congr fun d => and_congr_right fun hd => or_iff_right (rx_key_not_mem (hdests d hd) j)
  simp only [slotKeys, Record.triples, Record.txKeys, List.map_append, List.mem_append, or_iff_left hs,
    or_iff_left hl]
  cases hk : r.kind with
  | duplex =>
    simp only [connectTriples, List.map_append, List.mem_append, hduplex, tx_key_mem, or_iff_right hsrc,
      if_true]
    exact or_comm
  | simplex | branch =>
    simp only [connectTriples, List.map_append, List.mem_append, htx, or_iff_right hsrc]
    simp

/-! ### The record after the frame start that takes it -/

theorem dests_completed (r : Record) : r.completed.dests.map (·.dest) = r.staying.map (·.dest) := by
  simp only [Record.completed, completeDests, Record.staying, List.map_map]
  rfl

theorem mem_dests_completed {r : Record} {d : Dest} (h : d ∈ r.completed.dests) :
    d.state = .inService ∧ ∃ d0 ∈ r.dests, d0.dest = d.dest := by
  obtain ⟨d0, hd0, rfl⟩ := List.mem_map.mp h
  exact ⟨rfl, d0, List.mem_of_mem_filter hd0, rfl⟩

/-- A record of which no entry is moving has its entries after the frame start. -/
theorem dests_completed_single {r : Record} (h : r.Inv) (hk : r.kind ≠ .branch) :
    r.completed.dests = r.dests ∧ r.goingDests = [] := by
  obtain ⟨e, he⟩ := h.single hk
  simp [Record.completed, completeDests, Record.goingDests, he]

theorem perm_dests (r : Record) : r.dests.Perm (r.staying ++ r.goingDests) := by
  have h := List.filter_append_perm (fun d : Dest => decide (d.state ≠ .leaving)) r.dests
  have hgoing : (r.dests.filter fun d => !decide (d.state ≠ .leaving)) = r.goingDests := by
    simp [Record.goingDests]
  rw [hgoing] at h
  exact h.symm

/-- What the record held it still holds or gives up. -/
theorem triples_completed {r : Record} (h : r.Inv) :
    r.triples.Perm (r.completed.triples ++ r.goingTriples) := by
  have hfields : r.completed.kind = r.kind ∧ r.completed.width = r.width ∧ r.completed.source = r.source ∧
      r.completed.standby = r.standby ∧ r.completed.leaving = none := ⟨rfl, rfl, rfl, rfl, rfl⟩
  obtain ⟨hkind, hwidth, hsource, hstandby, hleaving⟩ := hfields
  simp only [Record.triples, Record.goingTriples, hkind, hwidth, hsource, hstandby, hleaving]
  by_cases hk : r.kind = .duplex
  · obtain ⟨hdests, hgoing⟩ := dests_completed_single h (by rw [hk]; decide)
    obtain ⟨hs, hl⟩ := h.duplex hk
    simp [hdests, hgoing, hs, hl]
  · have hconnect : ∀ ds, connectTriples r.kind r.width r.source ds =
        r.source.triples r.width .rx ++ ds.flatMap (End.triples r.width .tx) := by
      intro ds
      unfold connectTriples
      split
      · exact absurd ‹_› hk
      all_goals rfl
    have hperm : ((r.dests.map (·.dest)).flatMap (End.triples r.width .tx)).Perm
        ((r.completed.dests.map (·.dest)).flatMap (End.triples r.width .tx) ++
          r.goingDests.flatMap fun d => d.dest.triples r.width .tx) := by
      rw [dests_completed, List.flatMap_map, List.flatMap_map, ← List.flatMap_append]
      exact (perm_dests r).flatMap_right _
    simp only [hconnect, List.append_assoc, Option.elim_none, List.append_nil]
    refine .append_left _ ((hperm.append_right _).trans ?_)
    rw [List.append_assoc]
    refine .append_left _ ?_
    rw [← List.append_assoc, ← List.append_assoc]
    exact .append_right _ List.perm_append_comm

theorem slotKeys_completed {r : Record} (h : r.Inv) {key : Nat} :
    (key ∈ slotKeys r ↔ key ∈ slotKeys r.completed ∨ key ∈ r.goingTriples.map Triple.key) ∧
      (key ∈ slotKeys r.completed → key ∉ r.goingTriples.map Triple.key) := by
  have hperm := (triples_completed h).map Triple.key
  rw [List.map_append] at hperm
  have hnodup := hperm.nodup_iff.mp h.distinct
  refine ⟨hperm.mem_iff.trans List.mem_append, fun hk hg => ?_⟩
  exact (List.nodup_append.mp hnodup).2.2 key hk key hg rfl

theorem inv_completed {r : Record} (h : r.Inv) (hstate : r.state ≠ .retiring) : r.completed.Inv := by
  have hinstalled : r.completed.state ≠ .staged ∧ r.completed.state ≠ .retiring := by
    simp only [Record.completed]
    split
    · exact ⟨by decide, by decide⟩
    · exact ⟨‹_›, hstate⟩
  refine { h with
    ends := ⟨h.ends.1, fun d hd => ?_, h.ends.2.2.1, fun e he => (by cases he)⟩
    distinct := ?_
    single := fun hk => ?_
    branch := fun hk => ?_
    duplex := fun hk => ⟨(h.duplex hk).1, rfl⟩
    oneStandby := fun _ => rfl
    inFlight := fun hf => ?_
    staged := fun hs => absurd hs hinstalled.1 }
  · obtain ⟨-, d0, hd0, heq⟩ := mem_dests_completed hd
    exact heq ▸ h.ends.2.1 d0 hd0
  · have hnodup := ((triples_completed h).map Triple.key).nodup_iff.mp h.distinct
    rw [List.map_append] at hnodup
    exact (List.nodup_append.mp hnodup).1
  · obtain ⟨e, he⟩ := h.single hk
    exact ⟨e, (dests_completed_single h hk).1.trans he⟩
  · have hlength : r.completed.dests.length = r.staying.length := by
      simpa using congrArg List.length (dests_completed r)
    have hall : r.completed.staying = r.completed.dests := by
      refine List.filter_eq_self.mpr fun d hd => ?_
      rw [(mem_dests_completed hd).1]
      rfl
    obtain ⟨hmost, hleast⟩ := h.branch hk
    exact ⟨hlength.trans_le ((List.length_filter_le ..).trans hmost), by rw [hall, hlength]; exact hleast⟩
  · obtain hs | hr | hl | ⟨d, hd, hne⟩ := hf
    · exact absurd hs hinstalled.1
    · exact absurd hr hinstalled.2
    · cases hl
    · exact absurd (mem_dests_completed hd).1 hne

theorem completed_installed (r : Record) : r.completed.state ≠ .staged := by
  simp only [Record.completed]
  split
  · decide
  · assumption

/-- The transmit slots given up are those of the entries taken out. -/
theorem tx_goingKeys {r : Record} (h : r.Inv) {j : Nat} :
    16 * Config.frameSlots + j ∈ r.goingTriples.map Triple.key ↔
      j ∈ r.goingDests.flatMap fun d => d.dest.txKeys r.width := by
  have hl := rx_key_not_mem_opt h.ends.2.2.2 j
  rw [Record.goingTriples, List.map_append, List.mem_append, or_iff_left hl]
  simp only [List.map_flatMap, List.mem_flatMap, tx_key_mem]

/-! ### The tables after a record's frame start -/

theorem linked_installed {s : State} (h : Linked s) {id : Nat} {r : Record} (hr : s.records.get id = some r)
    (hstate : r.state ≠ .retiring) : Linked (installed s id r) := by
  have hinv := h.inv id r hr
  have hnew := inv_completed hinv hstate
  have howns : Owns (s.records.put id r.completed) (s.slotMap.delKeys (r.goingTriples.map Triple.key)) := by
    refine owns_put h.owns (owns_keys h.owns hr) (fun key => ?_) fun key hkey =>
      .inl ((slotKeys_completed hinv).1.mpr (.inl hkey))
    obtain ⟨hiff, hdisjoint⟩ := slotKeys_completed hinv (key := key)
    rw [Table.get_delKeys]
    by_cases hk : key ∈ slotKeys r.completed
    · rw [if_neg (hdisjoint hk), if_pos hk, (owns_keys h.owns hr key).mpr (hiff.mpr (.inl hk))]
    · rw [if_neg hk]
      exact if_congr (by rw [hiff, or_iff_right hk]) rfl rfl
  refine ⟨tablesWf_installed h.tables hr, inv_put h.inv hnew, howns,
    selected_put h.owns h.selected (owns_keys h.owns hr) howns fun j sel hj => ?_,
    binds_same h.binds hr rfl⟩
  obtain ⟨hmem, -⟩ | hold := get_writeRecord_some hj
  · exact .inl ⟨(tx_slotKeys hnew).mpr hmem, completed_installed r⟩
  · have hget := Table.get_delKeys s.selections (r.goingDests.flatMap fun d => d.dest.txKeys r.width) j
    rw [show (s.selections.delKeys _).get j = some sel from hold] at hget
    split at hget
    case isTrue => cases hget
    case isFalse hnot =>
      by_cases hkeep : 16 * Config.frameSlots + j ∈ slotKeys r.completed
      · exact .inl ⟨hkeep, completed_installed r⟩
      · refine .inr ⟨hget.symm, fun hmem => ?_⟩
        obtain hk | hg := (slotKeys_completed hinv).1.mp hmem
        · exact hkeep hk
        · exact hnot ((tx_goingKeys hinv).mp hg)

theorem delKeys_nil {α : Type} (t : Table α) : t.delKeys [] = t := by
  simp [Table.delKeys]

theorem selections_freed (s : State) (id : Nat) (r : Record) :
    (s.freeRecord id r).selections = s.selections := by simp

theorem linked_discard {s : State} (h : Linked s) {id : Nat} {r : Record} (hr : s.records.get id = some r)
    (hstate : r.state = .staged) : Linked (s.freeRecord id r) := by
  have hfree := linked_free h hr (keys := []) (.inl hstate)
  rw [delKeys_nil, ← selections_freed s id r] at hfree
  exact hfree

theorem linked_retireFrame {s : State} (h : Linked s) {id : Nat} {r : Record}
    (hr : s.records.get id = some r) : Linked (s.retireAtFrame id r) :=
  linked_withAttention
    (linked_free h hr (keys := r.txKeys) (.inr fun _ hj => (tx_slotKeys (h.inv id r hr)).mp hj)) _

theorem linked_bare {s : State} (h : Bare s) : Linked s := by
  have htables := tablesWf_bare h
  obtain ⟨hr, hm, hs, hc, -⟩ := h
  refine ⟨htables, fun id r hget => ?_, fun key id => ?_, fun j sel hj => ?_, fun k id => ?_⟩
  · rw [hr] at hget
    cases hget
  · rw [hr, hm]
    simp
  · rw [hs] at hj
    cases hj
  · rw [hr, hc]
    simp

theorem TableMove.keeps_linked {s t : State} (hmove : TableMove s t) (h : Linked s) : Linked t := by
  cases hmove with
  | frame t ht => exact linked_congr h ht
  | rewrite id r r' hr hrw => exact linked_rewrite h hr hrw
  | commit k c c' hk hinv hrecord =>
    exact ⟨tablesWf_withContext h.tables (context_lt h.tables hk) c', h.inv, h.owns, h.selected,
      binds_commit h hk hrecord⟩
  | tick f hinv hrecord =>
    refine ⟨(TableMove.tick f hinv hrecord).keeps_tablesWf h.tables, h.inv, h.owns, h.selected, fun k id => ?_⟩
    refine (h.binds k id).trans ?_
    change _ ↔ ∃ c, (s.contexts.mapValues f).get k = some c ∧ c.record = id
    rw [Table.get_mapValues]
    cases s.contexts.get k <;> simp [hrecord]
  | post x c => exact linked_withAttention h _
  | extend id r r' ts hr hinv htriples hfree hcontext hstate =>
    exact linked_extend h hr hinv htriples hfree hcontext hstate
  | bind id k r r' ts c hr hinv htriples hfree hunbound hcontext hstate hk hc hrecord =>
    exact linked_bind h hr hinv htriples hfree hunbound hcontext hstate hk hrecord
  | unbind id k r r' hr hk hinv htriples hcontext hstate =>
    exact linked_unbind h hr hk hinv htriples hcontext hstate
  | create id q p hp hfree hid => exact linked_create h hp hfree hid
  | discard id r hr hstate => exact linked_discard h hr hstate
  | retireFrame id r hr => exact linked_retireFrame h hr
  | installFrame id r hr hstate => exact linked_installed h hr hstate
  | fetch => exact linked_withAttention h _
  | clear t hr hm hs hc hl => exact linked_bare ⟨hr, hm, hs, hc, hl⟩

theorem linked_withQueue {s : State} (h : Linked s) (q : List Instr) : Linked { s with pending := q } :=
  (TableMove.withQueue s q).keeps_linked h

/-- Settles O57: every move of the tables, and the empty tables of power-on. -/
theorem stepKeepsTablesConsistent : Obligations.StepKeepsTablesConsistent :=
  stepKeeps_of_effect
    (fun _ q h => linked_iff.mp (linked_withQueue (linked_iff.mpr h) q))
    (fun _ _ _ hs h => linked_iff.mp
      (h.tableMoves.preserve (fun _ _ => TableMove.keeps_linked) (linked_iff.mpr hs)))
    fun s _ => linked_iff.mp (linked_bare (bare_powerOn s))

/-! ### The state after reset -/

theorem port_reset (n : PortNo) : State.reset.ports[n] = Port.powerOn false := by
  have hports : State.reset.ports = Vector.replicate 16 (Port.powerOn false) := by rw [State.reset]
  rw [hports]
  exact Vector.getElem_replicate ..

theorem busInv_reset : State.reset.BusInv := by
  have hports : ∀ p, State.reset.mport p = MPort.powerOn := fun p => by cases p <;> rfl
  have hx : State.reset.executor = none := rfl
  constructor
  case portM => exact inv_powerOn
  case portS => exact inv_powerOn
  case executing => intro p; rw [hports, hx]; simp [MPort.powerOn]
  case execution => intro x h; rw [hx] at h; cases h
  case held => intro h; cases h

theorem refInv_reset : State.reset.RefInv := by
  have hr : State.reset.ref = RefMonitor.powerOn := rfl
  constructor <;> simp [hr, RefMonitor.powerOn]

/-- Settles O60: ports, monitor and buses at power-on, and empty tables. -/
theorem resetIsSane : Obligations.ResetIsSane := by
  have hports : SanePorts State.reset := fun n => by rw [port_reset]; exact sane_powerOn false
  obtain ⟨hmap, hbind⟩ := linked_iff.mp (linked_bare bare_reset)
  obtain ⟨hcontexts, hlist⟩ := orderly_bare bare_reset
  exact ⟨portsInv_iff.mpr hports, refInv_reset, hmap, hbind, hcontexts, hlist, busInv_reset⟩

end Sys2Proof.Proofs
end

section
/-! PROOFS. Power-on (O5), and the ports at a system frame start and at a slip period's end (O17, O18, O19,
O20). -/

namespace Sys2Proof.Proofs

open Sys2Proof Sys2Proof.Machine

/-! ### Power-on -/

/-- Settles O5: the released state by its fields, and every field of the power-on state. -/
theorem rstAssertPutsPowerOnValues : Obligations.RstAssertPutsPowerOnValues := by
  refine ⟨fun r s t ht => ⟨fun hr => ?_, fun hr => ?_⟩, fun s => ⟨s.powerOn, rfl, rfl, rfl, rfl, fun n => ?_, ?_⟩⟩
  · subst ht
    exact ⟨if_pos hr, rfl⟩
  · exact if_neg (by rw [hr]; exact Bool.false_ne_true)
  · rw [port_powerOn]
    exact ⟨rfl, rfl, rfl, rfl, rfl, rfl, rfl, rfl, rfl, rfl, rfl, rfl, rfl, rfl, rfl, rfl, rfl, rfl⟩
  · have hports : ∀ p, s.powerOn.mport p = MPort.powerOn := fun p => by cases p <;> rfl
    refine ⟨rfl, rfl, rfl, rfl, rfl, rfl, rfl, fun _ => rfl, fun _ => rfl, fun _ _ => rfl, fun _ => rfl, rfl, rfl, rfl,
      rfl, fun p => ?_, rfl, rfl, rfl, rfl⟩
    rw [hports]
    exact ⟨rfl, rfl, rfl, rfl, rfl⟩

/-! ### The read side (R32, R35) -/

theorem slip_frameStart (s : State) (n : PortNo) :
    s.frameStart.ports[n].slip = s.ports[n].slip.take s.ports[n].aligned := by
  rw [port_frameStart_eq]

theorem take_waiting {b : SlipBuffer} {f : Frame} {rest : List Frame} (h : b.waiting = f :: rest) :
    b.take true = { b with waiting := rest, read := f } := by
  simp [SlipBuffer.take, h]

theorem take_repeats {b : SlipBuffer} (h : b.waiting = []) : b.take true = b.countSlip := by
  simp [SlipBuffer.take, h]

/-- Settles O17: the three reads. -/
theorem frameStartGivesReadFrame : Obligations.FrameStartGivesReadFrame := by
  refine fun s n => ⟨fun f rest ha hw => ?_, fun ha hw => ?_, fun ha => ?_⟩
  · rw [slip_frameStart, ha, take_waiting hw]
  · rw [slip_frameStart, ha, take_repeats hw]
    rfl
  · rw [slip_frameStart, ha]
    rfl

/-! ### A sweep over the ports -/

/-- A sweep that moves no framer reaches the ports and the list alone. -/
theorem changePorts_frame {f : Port → Port} (hf : ∀ p, (f p).aligned = p.aligned) (s : State) :
    s.changePorts f =
      { s with ports := (s.changePorts f).ports, attention := (s.changePorts f).attention } := by
  have hstep : ∀ (u : State) (n : PortNo),
      u = { s with ports := u.ports, attention := u.attention } →
      u.changePort n (f u.ports[n]) = { s with
        ports := (u.changePort n (f u.ports[n])).ports,
        attention := (u.changePort n (f u.ports[n])).attention } := by
    intro u n hu
    have hframe := changePort_frame u n (f u.ports[n])
    have href : (u.changePort n (f u.ports[n])).ref = s.ref := by
      rw [ref_changePort, hf, if_neg (fun h => by rw [h.1] at h; exact Bool.false_ne_true h.2.1.symm), hu]
    rw [href, ← ports_changePort] at hframe
    generalize u.changePort n (f u.ports[n]) = v at hframe ⊢
    rw [hu] at hframe
    exact hframe
  rw [State.changePorts]
  exact foldl_preserves (P := fun u => u = { s with ports := u.ports, attention := u.attention })
    hstep (List.finRange 16) (s := s) rfl

theorem ready_after {p : Period} {length : Nat} : p.ready length .after = true ↔ p.expiry = .due := by
  simp [Period.ready]

theorem ready_before {p : Period} {length : Nat} :
    p.ready length .before = true ↔ p.expiry = .idle ∧ p.count + 1 = length := by
  simp [Period.ready]

theorem exec_slipPeriodEnd {turn : Turn} {s : State} (h : s.slipPeriod.ready 8000 turn = true) :
    exec (.slipPeriodEnd turn) s =
      .next { s.changePorts Port.judgeSlips with slipPeriod := s.slipPeriod.take turn } := if_pos h

theorem judgeSlips_eq (p : Port) : p.judgeSlips = { p with
    slip := { p.slip with periodSlips := 0 },
    defects := if p.config.enable then { p.defects with
      slipExcess := decide (p.config.threshold.toNat ≤ p.slip.periodSlips) } else p.defects } := by
  unfold Port.judgeSlips
  split <;> rfl

theorem aligned_judgeSlips (p : Port) : p.judgeSlips.aligned = p.aligned := by
  rw [judgeSlips_eq]
  rfl

/-- Settles O18: the two turns of an expiry, and the sweep over the ports. -/
theorem slipPeriodEndJudgesEveryPort : Obligations.SlipPeriodEndJudgesEveryPort := by
  refine ⟨fun p length => ⟨ready_after, ready_before, rfl, rfl⟩, fun turn s h => ?_⟩
  have hports := ports_changePorts s Port.judgeSlips
  have hframe := changePorts_frame aligned_judgeSlips s
  refine ⟨_, exec_slipPeriodEnd h, ?_⟩
  generalize s.changePorts Port.judgeSlips = t at hports hframe ⊢
  refine ⟨fun n => ?_, ?_⟩
  · dsimp only
    rw [hports, judgeSlips_eq]
  · rw [hframe]

/-! ### The oscillator -/

theorem interval_of_lineSide {s t : State} (h : lineSide t = lineSide s) :
    t.interval = s.interval ∧ t.slipPeriod = s.slipPeriod :=
  ⟨(lineSide_eq_iff.mp h).2.2.1, (lineSide_eq_iff.mp h).2.2.2.1⟩

/-- A state that keeps the outer side, the reference and the enables of another differs from it in ports,
tables, list and counts alone. -/
theorem eq_of_outer {s t : State} (ho : outer t = outer s) (hr : t.ref = s.ref)
    (he : t.enableM = s.enableM ∧ t.enableS = s.enableS) : t = { s with
      ports := t.ports, records := t.records, slotMap := t.slotMap, selections := t.selections,
      contexts := t.contexts, attention := t.attention, interval := t.interval,
      slipPeriod := t.slipPeriod } := by
  obtain ⟨h1, h2, h3, h4, h5, h6, h7, h8, h9⟩ := outer_eq_iff.mp ho
  obtain ⟨hm, hs⟩ := he
  cases t
  cases s
  simp only at h1 h2 h3 h4 h5 h6 h7 h8 h9 hr hm hs
  subst h1 h2 h3 h4 h5 h6 h7 h8 h9 hr hm hs
  rfl

theorem lineSide_framesTaken (s : State) : lineSide (framesTaken s).applyPending = lineSide (framesTaken s) :=
  lineSide_applyPending _

/-- What a system frame start leaves, but for ports, tables, list and counts (R28). -/
theorem frameStart_frame (s : State) : s.frameStart = { s with
    ports := s.frameStart.ports, records := s.frameStart.records, slotMap := s.frameStart.slotMap,
    selections := s.frameStart.selections, contexts := s.frameStart.contexts,
    attention := s.frameStart.attention, interval := s.frameStart.interval,
    slipPeriod := s.frameStart.slipPeriod } :=
  eq_of_outer (outer_frameStart s) (ref_frameStart s) (enables_eq_iff.mp (enables_frameStart s))

theorem interval_frameStart (s : State) : s.frameStart.interval = s.interval.tick 80 ∧
    s.frameStart.slipPeriod = s.slipPeriod.tick 8000 := by
  obtain ⟨hi, hs⟩ := interval_of_lineSide (lineSide_framesTaken s)
  exact ⟨congrArg (Period.tick · 80) hi, congrArg (Period.tick · 8000) hs⟩

theorem count_tick (p : Period) (length : Nat) :
    (p.tick length).count = if p.count + 1 < length then p.count + 1 else 0 := by
  unfold Period.tick
  split
  case isTrue h => rw [if_neg (Nat.not_lt.mpr h)]
  case isFalse h => rw [if_pos (Nat.lt_of_not_le h)]

theorem expiry_tick {p : Period} {length : Nat} (h : length ≤ p.count + 1) (ht : p.expiry ≠ .taken) :
    (p.tick length).expiry = .due := by
  rw [Period.tick, if_pos h]
  exact if_neg ht

theorem bitsNs_eq (bits : Nat) : bitsNs bits = (bits * 125000 + 287) / 288 := by
  rw [bitsNs, Nat.add_sub_assoc (by decide), Config.frameNs, Config.frameBits]

theorem inward_iff {p : Port} : p.inward = true ↔ p.maint.loop = .inwardHost := by
  simp [Port.inward]

theorem marksLate_iff {p : Port} {count : Nat} : p.marksLate count = true ↔
    p.maint.loop = .inwardHost ∧ 288 < (p.framer.place - p.txPlace).val + count := by
  simp only [Port.marksLate, Bool.and_eq_true, inward_iff, decide_eq_true_eq]
  rfl

/-- The mark that the oscillator's start takes first (R23, R103). -/
theorem takeLateMark_port {s : State} {n : PortNo} (hsel : s.ref.selection = .port n)
    (ha : s.ports[n].aligned = true) (ho : s.ports[n].framer.overhead = [])
    (hl : s.ports[n].maint.loop = .inwardHost)
    (hlate : 288 < (s.ports[n].framer.place - s.ports[n].txPlace).val + 8) :
    s.takeLateMark = s.mark (s.ref.lastStart +
      ((s.ports[n].framer.place - s.ports[n].txPlace).val * 125000 + 287) / 288) := by
  have hmark : s.lateMark = some (s.bitMoment (s.ports[n].offset s.ports[n].framer.place)) := by
    simp only [State.lateMark, hsel]
    exact if_pos ⟨ha, ho, marksLate_iff.mpr ⟨hl, hlate⟩⟩
  rw [State.takeLateMark, hmark]
  simp only [State.bitMoment, bitsNs_eq, Port.offset]

theorem takeLateMark_none {s : State} (h : ¬ ∃ n : PortNo, s.ref.selection = .port n ∧ s.ports[n].aligned = true ∧
    s.ports[n].framer.overhead = [] ∧ s.ports[n].maint.loop = .inwardHost ∧
    288 < (s.ports[n].framer.place - s.ports[n].txPlace).val + 8) : s.takeLateMark = s := by
  have hmark : s.lateMark = none := by
    unfold State.lateMark
    split
    case h_1 n hsel =>
      refine if_neg fun ⟨ha, ho, hl⟩ => h ⟨n, hsel, ha, ho, ?_⟩
      exact marksLate_iff.mp hl
    case h_2 => rfl
  rw [State.takeLateMark, hmark]

theorem exec_oscillator_high {s : State} (h : s.rst = false) : exec .oscillatorFrameStart s =
    .next (if s.takeLateMark.ref.lastStart = s.ref.lastStart then s.takeLateMark.oscillatorStart
      else s.takeLateMark) :=
  if_neg (by rw [h]; exact Bool.false_ne_true)

theorem oscillatorStart_eq (u : State) : u.oscillatorStart = State.frameStart { u with ref :=
    { u.ref with point := u.ref.point + 125000, lastStart := u.ref.point + 125000,
                 windowOpen := decide (u.ref.state = .refOk) } } := by
  have hwindow : (u.ref.state == .refOk) = decide (u.ref.state = .refOk) := rfl
  rw [State.oscillatorStart, State.startAt, hwindow]

/-- Settles O19: the mark taken first, the start, the two counts and what the start leaves. -/
theorem oscillatorMakesFrameStart : Obligations.OscillatorMakesFrameStart := by
  intro s
  obtain ⟨hinterval, hslip⟩ := interval_frameStart s
  refine ⟨fun late hlate u hno hyes => ?_, fun h => if_pos h, ?_, ?_, ?_, ?_, fun n => ?_, frameStart_frame s⟩
  · have hu : u = s.takeLateMark := by
      by_cases hl : late
      · obtain ⟨n, hsel, ha, ho, hloop, hplace⟩ := hlate.mp hl
        rw [takeLateMark_port hsel ha ho hloop hplace]
        exact hyes n hl hsel
      · rw [takeLateMark_none (hlate.not.mp hl)]
        exact hno hl
    subst hu
    refine ⟨fun hr heq => ?_, fun hr hne => ?_⟩
    · rw [exec_oscillator_high hr, if_pos heq, oscillatorStart_eq]
    · rw [exec_oscillator_high hr, if_neg hne]
  · rw [hinterval, count_tick]
  · rw [hslip, count_tick]
  · intro hc ht
    rw [hinterval, expiry_tick hc ht]
  · intro hc ht
    rw [hslip, expiry_tick hc ht]
  · rw [port_frameStart_eq]
    exact ⟨rfl, rfl, rfl, rfl, rfl⟩

/-! ### The transmit frame (R15, R16, R90, R102) -/

theorem chooseSymbol_eq (p : Port) : p.chooseSymbol =
    if 0 < p.maint.burstLeft then (match p.maint.burstCode with | .loopUp => 0x6 | .loopDown => 0x9)
    else if p.config.farSend = true ∧ (p.sourceDefect = .sigLost ∨ p.sourceDefect = .aisIn ∨
      p.sourceDefect = .unframed) then 0xE
    else 0x0 := by
  have hsends : p.sourceDefect.sendsFarAlarm = true ↔
      p.sourceDefect = .sigLost ∨ p.sourceDefect = .aisIn ∨ p.sourceDefect = .unframed := by
    cases p.sourceDefect <;> simp [SourceDefect.sendsFarAlarm]
  have hsymbol : p.maint.burstCode.nibble =
      match p.maint.burstCode with | .loopUp => 0x6 | .loopDown => 0x9 := by
    cases p.maint.burstCode <;> rfl
  unfold Port.chooseSymbol
  simp only [hsymbol, Bool.and_eq_true, hsends]

theorem selection_frameStart (s : State) (n : PortNo) (slot : Nat) :
    s.frameStart.selection n slot = (interchanged s).selection n slot := by
  rw [frameStart_eq]
  rfl

theorem read_interchanged (s : State) (n : PortNo) :
    (interchanged s).ports[n].slip.read = s.frameStart.ports[n].slip.read := by
  rw [slip_frameStart, ports_interchanged, mapPorts_get]
  rfl

/-- A payload byte: the port's own read frame in a RETURN loop, else its selection's (R90, R102). -/
theorem payloadByte_interchanged (s : State) (n : PortNo) (slot : Nat) :
    (interchanged s).payloadByte n slot =
      if s.ports[n].maint.loop = .returnHost ∨ s.ports[n].maint.loop = .returnCode then
        s.frameStart.ports[n].slip.read.getD slot 0xFF
      else match s.frameStart.selection n slot with
        | .idle => s.ports[n].config.idleCode
        | .source m slot => s.frameStart.ports[m].slip.read.getD slot 0xFF
        | .cond byte => byte := by
  have hport : (interchanged s).ports[n] = s.ports[n].takeFrame := by
    rw [ports_interchanged, mapPorts_get]
  have hlooped : (interchanged s).looped n = true ↔
      s.ports[n].maint.loop = .returnHost ∨ s.ports[n].maint.loop = .returnCode := by
    rw [State.looped, hport]
    change s.ports[n].maint.loop.returns = true ↔ _
    cases s.ports[n].maint.loop <;> simp [LoopState.returns]
  rw [State.payloadByte, selection_frameStart, read_interchanged]
  refine if_congr hlooped rfl ?_
  cases (interchanged s).selection n slot with
  | idle => exact (congrArg (fun p : Port => p.config.idleCode) hport).trans rfl
  | source m k => simp only [State.slotByte, read_interchanged]
  | cond b => rfl

theorem tick_burstLeft (m : Maint) : m.tick.burstLeft = m.burstLeft := by
  obtain ⟨-, heq⟩ := tick_fields m
  rw [heq]

/-- All the bits of a system frame that has ended were sent (R15). -/
theorem lastSent_all {p : Port} (h : p.SlipInv) : p.lastSent 288 = p.txBits := by
  have hlast := h.last
  have hbits := length_txBits h.sent
  rw [Port.lastSent, List.drop_of_length_le (by rw [hlast]), List.take_of_length_le (by rw [hbits]),
    List.nil_append]

theorem txSymbol_frameStart (s : State) (n : PortNo) : s.frameStart.ports[n].txSymbol =
    if s.ports[n].config.enable then s.ports[n].chooseSymbol else s.ports[n].txSymbol := by
  rw [port_frameStart_eq]

theorem txPayload_frameStart (s : State) (n : PortNo) : s.frameStart.ports[n].txPayload =
    if s.ports[n].config.enable then some ((interchanged s).payload n) else none := by
  rw [port_frameStart_eq]

theorem maint_frameStart (s : State) (n : PortNo) : s.frameStart.ports[n].maint =
    if s.ports[n].config.enable then s.ports[n].maint.burstFrame.tick else s.ports[n].maint.tick := by
  rw [port_frameStart_eq]

theorem txLast_frameStart (s : State) (n : PortNo) :
    s.frameStart.ports[n].txLast = s.ports[n].lastSent 288 := by
  rw [port_frameStart_eq]

theorem rxFirst_frameStart (s : State) (n : PortNo) : s.frameStart.ports[n].rxFirst =
    s.ports[n].rxFirst.bind fun k => if 288 ≤ k then some (k - 288) else none := by
  rw [port_frameStart_eq]

theorem getElem_payload (s : State) (n : PortNo) {k : Nat} (hk : k < 35) :
    (s.payload n)[k]? = some (s.payloadByte n (k + 1)) := by
  simp [State.payload, hk]

/-- Settles O20: the transmit side of a port at a system frame start, enabled and disabled. -/
theorem frameStartBeginsTransmitFrame : Obligations.FrameStartBeginsTransmitFrame := by
  intro s n
  refine ⟨fun he => ⟨?_, ?_, (interchanged s).payload n, ?_, length_payload _ n, fun k hk => ?_⟩,
    fun he => ⟨?_, ?_⟩, fun hinv => ?_, rxFirst_frameStart s n⟩
  · rw [txSymbol_frameStart, if_pos he]
    exact chooseSymbol_eq _
  · rw [maint_frameStart, if_pos he, tick_burstLeft]
    rfl
  · rw [txPayload_frameStart, if_pos he]
  · refine (getElem_payload _ n hk).trans (congrArg some ?_)
    refine (payloadByte_interchanged s n (k + 1)).trans ?_
    generalize s.frameStart = t
    cases t.selection n (k + 1) <;> rfl
  · rw [txPayload_frameStart, if_neg (ne_true_of_eq_false he)]
  · rw [maint_frameStart, if_neg (ne_true_of_eq_false he), tick_burstLeft]
  · rw [txLast_frameStart, lastSent_all hinv]

end Sys2Proof.Proofs
end

section
/-! PROOFS. The reference monitor's marks (O26, O27) and the marks of a selected port's frames (O28). -/

namespace Sys2Proof.Proofs

open Sys2Proof Sys2Proof.Machine

/-! ### REF_OK (R24, R25) -/

theorem exec_markWindowClose (s : State) : exec .markWindowClose s =
    if s.ref.state = .refOk ∧ s.ref.windowOpen = true then .next { s with ref := s.ref.missWindow }
    else .next s := rfl

theorem missWindow_few {r : RefMonitor} (h : r.missed < 2) :
    r.missWindow = { r with missed := r.missed + 1, windowOpen := false } :=
  if_neg (by simp only [Config.missedMarks]; omega)

theorem missWindow_third {r : RefMonitor} (h : 2 ≤ r.missed) : r.missWindow = r.lose :=
  if_pos (by simp only [Config.missedMarks]; omega)

/-- An edge on SFR while EXTERNAL is selected is a mark (R23). -/
theorem exec_sfrMark {s : State} {m : Nat} (hr : s.rst = false) (hsel : s.ref.selection = .external) :
    exec (.sfrMark m) s = .next (s.mark m) := if_pos ⟨hr, hsel⟩

theorem mark_refOk {s : State} (h : s.ref.state = .refOk) (m : Nat) : s.mark m = s.markOk m := by
  rw [State.mark, h]

theorem mark_freewheel {s : State} (h : s.ref.state = .freewheel) (m : Nat) : s.mark m = s.markFree m := by
  rw [State.mark, h]

theorem markOk_open {s : State} {m : Nat} (h : s.ref.windowOpen = true) : s.markOk m =
    if s.ref.point ≤ m ∧ m ≤ s.ref.point + 1000 then
      { s with ref := { s.ref with point := m, missed := 0, windowOpen := false } }
    else s := by
  rw [State.markOk, if_pos h]
  refine if_congr (and_congr_right fun _ => ?_) rfl rfl
  simp only [Config.frameNs, Config.windowCloseNs]
  omega

theorem markOk_closed {s : State} {m : Nat} (h : s.ref.windowOpen = false) : s.markOk m =
    if s.ref.point + 124000 ≤ m ∧ m ≤ s.ref.point + 125000 then s.startAt m { s.ref with missed := 0 }
    else s := if_neg (ne_true_of_eq_false h)

/-- Settles O26: the window's close, and a mark with the window open and closed. -/
theorem markInRefOk : Obligations.MarkInRefOk := by
  refine ⟨fun s => ⟨fun hok hw hm => ?_, fun hok hw hm => ?_, fun h => ?_⟩, fun s m hr hsel hok => ?_⟩
  · rw [exec_markWindowClose, if_pos ⟨hok, hw⟩, missWindow_few hm]
  · rw [exec_markWindowClose, if_pos ⟨hok, hw⟩, missWindow_third hm]
    rfl
  · refine if_neg fun ⟨hok, hw⟩ => ?_
    obtain hf | hf := h
    · rw [hok] at hf
      cases hf
    · rw [hw] at hf
      cases hf
  · rw [exec_sfrMark hr hsel, mark_refOk hok]
    refine ⟨fun hw h1 h2 => ?_, fun hw h1 h2 => ?_, fun hw h => ?_, fun hw h => ?_⟩
    · rw [markOk_closed hw, if_pos ⟨h1, h2⟩, State.startAt]
    · rw [markOk_open hw, if_pos ⟨h1, h2⟩]
    · rw [markOk_closed hw, if_neg (by omega)]
    · rw [markOk_open hw, if_neg (by omega)]

/-! ### FREEWHEEL (R26, R27) -/

theorem exec_goodMarkTimeout (s : State) : exec .goodMarkTimeout s =
    if s.ref.state = .freewheel then .next { s with ref := { s.ref with good := 0, lastMark := none } }
    else .next s := rfl

theorem goodRun_eq (r : RefMonitor) (m : Nat) : r.goodRun m = match r.lastMark with
    | none => 1
    | some l => if l + 124000 ≤ m ∧ m ≤ l + 126000 then r.good + 1 else 1 := by
  unfold RefMonitor.goodRun
  cases r.lastMark <;> rfl

theorem markFree_few {s : State} {m : Nat} (h : s.ref.goodRun m < 16) : s.markFree m =
    { s with ref := { s.ref with good := s.ref.goodRun m, lastMark := some m } } :=
  if_neg (Nat.not_le.mpr h)

theorem markFree_sixteenth {s : State} {m : Nat} (h : 16 ≤ s.ref.goodRun m) :
    s.markFree m = s.reacquireAt m := if_pos h

/-- The start that the re-acquiring mark makes, before its cut (R27). -/
def reacquiring (s : State) (m : Nat) : State :=
  State.frameStart { s with ref := { s.ref with
    state := .refOk, point := m, lastStart := m, windowOpen := false, missed := 0, good := 0,
    lastMark := none } }

theorem reacquireAt_eq (s : State) (m : Nat) : s.reacquireAt m = { reacquiring s m with
    ports := mapPorts (fun n p => p.reacquire s.ports[n] (s.bitsSent m)) (reacquiring s m).ports } := by
  rw [State.reacquireAt, State.startAt, reacquiring]

theorem port_reacquired (s : State) (m : Nat) (n : PortNo) : (s.reacquireAt m).ports[n] =
    (reacquiring s m).ports[n].reacquire s.ports[n] (s.bitsSent m) := by
  rw [reacquireAt_eq]
  dsimp only
  rw [mapPorts_get]

theorem enable_reacquiring (s : State) (m : Nat) (n : PortNo) :
    (reacquiring s m).ports[n].config.enable = s.ports[n].config.enable := by
  rw [reacquiring, port_frameStart_eq]

/-- The cut of the frame in progress, and the recentred buffer of an enabled port (R27, R34). -/
theorem reacquire_eq (p before : Port) (sent : Nat) : p.reacquire before sent = { p with
    slip := (p.reacquire before sent).slip,
    txLast := before.txLast.drop sent ++ before.txBits.take sent,
    rxFirst := before.rxFirst.bind fun k => if sent ≤ k then some (k - sent) else none,
    txPlace := p.txPlace + Fin.ofNat 288 sent } := rfl

theorem slip_reacquire (p before : Port) (sent : Nat) : (p.reacquire before sent).slip =
    if p.config.enable then { p.slip with
      waiting := [List.replicate 36 0xFF], writing := none, slot := [] } else p.slip := rfl

/-- Settles O27: the run's end, a mark that grows it, and the sixteenth. -/
theorem markInFreewheel : Obligations.MarkInFreewheel := by
  refine ⟨fun s => ⟨fun h => ?_, fun h => ?_⟩, fun s m run sent hr hsel hfree hrun hsent => ⟨fun h => ?_, fun h => ?_⟩⟩
  · rw [exec_goodMarkTimeout, if_pos h]
  · rw [exec_goodMarkTimeout, if_neg (by rw [h]; decide)]
  · have heq : s.ref.goodRun m = run := (goodRun_eq s.ref m).trans (hrun.symm ▸ rfl)
    rw [exec_sfrMark hr hsel, mark_freewheel hfree, markFree_few (heq ▸ h), heq]
  · have heq : s.ref.goodRun m = run := (goodRun_eq s.ref m).trans (hrun.symm ▸ rfl)
    have hbits : s.bitsSent m = sent := hsent.symm
    refine ⟨s.reacquireAt m, reacquiring s m, ?_, rfl, fun n he => ?_, fun n he => ?_, fun n => ?_, ?_⟩
    · rw [exec_sfrMark hr hsel, mark_freewheel hfree, markFree_sixteenth (heq ▸ h)]
    · rw [port_reacquired, slip_reacquire, enable_reacquiring, if_pos he]
    · rw [port_reacquired, slip_reacquire, enable_reacquiring, if_neg (ne_true_of_eq_false he)]
    · rw [port_reacquired, hbits]
      exact reacquire_eq ..
    · rw [reacquireAt_eq]

/-! ### A mark with another pin and another selection -/

/-- A state with the RST pin and the monitor of its own. -/
def withMonitor (rst : Bool) (r : RefMonitor) (s : State) : State := { s with rst := rst, ref := r }

theorem recompute_withMonitor (rst : Bool) (r : RefMonitor) (s : State) (id : Nat) :
    (withMonitor rst r s).recompute id = withMonitor rst r (s.recompute id) := by
  have hfree : ∀ x, (withMonitor rst r s).freeRecord id x = withMonitor rst r (s.freeRecord id x) := by
    intro x
    unfold State.freeRecord State.unbind
    split <;> rfl
  have hpost : ∀ b (u : State), (withMonitor rst r u).postIf b (.record id) .state =
      withMonitor rst r (u.postIf b (.record id) .state) := by
    intro b u
    cases b <;> rfl
  have hrecords : (withMonitor rst r s).records = s.records := rfl
  unfold State.recompute
  rw [hrecords]
  split
  case h_1 => rfl
  case h_2 x _ =>
    split
    · rw [State.retireAtFrame, hfree]
      rfl
    · rw [installAtFrame_eq, installAtFrame_eq]
      exact hpost _ (installed s id x)

theorem applyPending_withMonitor (rst : Bool) (r : RefMonitor) (s : State) :
    (withMonitor rst r s).applyPending = withMonitor rst r s.applyPending :=
  List.foldl_hom (withMonitor rst r) (g₁ := State.recompute) (g₂ := State.recompute) (recompute_withMonitor rst r)

theorem frameStart_withMonitor (rst : Bool) (r : RefMonitor) (s : State) :
    (withMonitor rst r s).frameStart = withMonitor rst r s.frameStart := by
  have hinterchanged : interchanged (withMonitor rst r s) = withMonitor rst r (interchanged s) := by
    have htaken : framesTaken (withMonitor rst r s) = withMonitor rst r (framesTaken s) := rfl
    have htick : ∀ u, (withMonitor rst r u).tickCounts = withMonitor rst r u.tickCounts := fun _ => rfl
    rw [interchanged, htaken, applyPending_withMonitor, htick, interchanged]
  rw [frameStart_eq, frameStart_eq, hinterchanged]
  rfl

/-- The monitor of `s` with EXTERNAL selected and RST high, on `u`. -/
def external (u : State) : State := withMonitor false { u.ref with selection := .external } u

theorem external_eq {u : State} {r : RefMonitor} (h : u.ref = r) :
    external u = withMonitor false { r with selection := .external } u := by
  subst h
  rfl

theorem ref_startAt (s : State) (m : Nat) (r : RefMonitor) :
    (s.startAt m r).ref = { r with point := m, lastStart := m } := by
  rw [State.startAt, ref_frameStart]

theorem external_startAt (s : State) (m : Nat) (r : RefMonitor) :
    (external s).startAt m { r with selection := .external } = external (s.startAt m r) := by
  have h := frameStart_withMonitor false { r with selection := .external, point := m, lastStart := m }
    { s with ref := { r with point := m, lastStart := m } }
  rw [external_eq (ref_startAt s m r), State.startAt, State.startAt]
  exact h

theorem external_reacquiring (s : State) (m : Nat) : reacquiring (external s) m = external (reacquiring s m) :=
  external_startAt s m
    { s.ref with state := .refOk, windowOpen := false, missed := 0, good := 0, lastMark := none }

theorem external_reacquireAt (s : State) (m : Nat) :
    (external s).reacquireAt m = external (s.reacquireAt m) := by
  rw [reacquireAt_eq, reacquireAt_eq, external_reacquiring]
  generalize reacquiring s m = u
  rfl

/-- A mark does not read the selection or RST. -/
theorem external_mark (s : State) (m : Nat) : (external s).mark m = external (s.mark m) := by
  cases hs : s.ref.state with
  | refOk =>
    rw [mark_refOk hs, mark_refOk (s := external s) hs]
    cases hw : s.ref.windowOpen with
    | true =>
      rw [markOk_open hw, markOk_open (s := external s) hw]
      by_cases h : s.ref.point ≤ m ∧ m ≤ s.ref.point + 1000
      · rw [if_pos h, if_pos (by exact h)]
        rfl
      · rw [if_neg h, if_neg (by exact h)]
    | false =>
      rw [markOk_closed hw, markOk_closed (s := external s) hw]
      by_cases h : s.ref.point + 124000 ≤ m ∧ m ≤ s.ref.point + 125000
      · rw [if_pos h, if_pos (by exact h)]
        exact external_startAt s m { s.ref with missed := 0 }
      · rw [if_neg h, if_neg (by exact h)]
  | freewheel =>
    rw [mark_freewheel hs, mark_freewheel (s := external s) hs]
    have hrun : (external s).ref.goodRun m = s.ref.goodRun m := rfl
    by_cases h : 16 ≤ s.ref.goodRun m
    · rw [markFree_sixteenth h, markFree_sixteenth (s := external s) (by rwa [hrun]), external_reacquireAt]
    · rw [markFree_few (Nat.lt_of_not_le h),
        markFree_few (s := external s) (by rw [hrun]; exact Nat.lt_of_not_le h), hrun]
      rfl

/-! ### The frame of the selected port -/

theorem begins_iff {p : Port} {bits : List Bool} : p.begins bits = true ↔
    p.aligned = true ∧ p.framer.overhead = [] ∧ bits ≠ [] := by
  simp [Port.begins, and_assoc]

/-- The mark that a frame of the port makes (R23). -/
theorem frameMark_mark {s : State} {n : PortNo} {m : Nat} {bits : List Bool} (hb : s.ports[n].begins bits = true)
    (hsel : s.ref.selection = .port n) (hlate : s.ports[n].marksLate (bits.take 8).length = false) :
    s.frameMark n m bits = s.mark (s.markMoment n m) := if_pos ⟨hb, hsel, hlate⟩

theorem reacquires_iff {s : State} {m : Nat} : s.reacquires m = true ↔ s.ref.state = .freewheel ∧
    15 ≤ s.ref.good ∧ ∃ l, s.ref.lastMark = some l ∧ l + 124000 ≤ m ∧ m ≤ l + 126000 := by
  have hrun : 16 ≤ s.ref.goodRun m ↔
      15 ≤ s.ref.good ∧ ∃ l, s.ref.lastMark = some l ∧ l + 124000 ≤ m ∧ m ≤ l + 126000 := by
    rw [goodRun_eq]
    cases s.ref.lastMark with
    | none => simp
    | some l =>
      simp only [Option.some.injEq, exists_eq_left']
      split
      case isTrue h => simp [h]
      case isFalse h => simp [h]
  simp only [State.reacquires, Bool.and_eq_true, beq_iff_eq, decide_eq_true_eq]
  rw [show Config.goodMarks = 16 from rfl, hrun]

/-- The mark is taken before the coming start (R27). -/
theorem markBeforeStart_iff {s : State} {n : PortNo} {m : Nat} : s.markBeforeStart n m = true ↔
    (s.ports[n].framer.place - s.ports[n].txPlace).val = 0 ∧ m = s.ref.lastStart + 125000 ∧
      s.ref.state = .freewheel ∧ 15 ≤ s.ref.good ∧
      ∃ l, s.ref.lastMark = some l ∧ l + 124000 ≤ m ∧ m ≤ l + 126000 := by
  simp only [State.markBeforeStart, Bool.and_eq_true, beq_iff_eq, reacquires_iff, and_assoc]
  rfl

theorem selection_mark (s : State) (m : Nat) : (s.mark m).ref.selection = s.ref.selection := by
  obtain ⟨-, heq | ⟨-, heq⟩ | ⟨-, heq⟩⟩ | ⟨-, ⟨-, heq⟩ | ⟨-, heq⟩⟩ := mark_cases s m
  · rw [heq]
  · rw [heq]
  · rw [heq, ref_startAt]
  · rw [heq, ref_reacquireAt]
  · rw [heq]

theorem aligned_mark (s : State) (m : Nat) (n : PortNo) : (s.mark m).ports[n].aligned = s.ports[n].aligned := by
  obtain ⟨-, heq | ⟨-, heq⟩ | ⟨-, heq⟩⟩ | ⟨-, ⟨-, heq⟩ | ⟨-, heq⟩⟩ := mark_cases s m
  · rw [heq]
  · rw [heq]
  · rw [heq, State.startAt, aligned_frameStart]
  · rw [heq, aligned_reacquireAt]
  · rw [heq]

theorem frameMark_keeps (s : State) (n : PortNo) (m : Nat) (bits : List Bool) :
    (s.frameMark n m bits).ref.selection = s.ref.selection ∧
      (s.frameMark n m bits).ports[n].aligned = s.ports[n].aligned := by
  unfold State.frameMark
  split
  · exact ⟨selection_mark .., aligned_mark ..⟩
  · exact ⟨rfl, rfl⟩

/-- A port's change with its code reaches the ports, the monitor and the list. -/
theorem changeCounted_frame (s : State) (n : PortNo) (x : Port × Bool) : s.changeCounted n x =
    { s with ports := s.ports.set n x.1, ref := (s.changePort n x.1).ref,
             attention := (s.changeCounted n x).attention } := by
  have hframe := changePort_frame s n x.1
  unfold State.changeCounted
  generalize s.changePort n x.1 = t at hframe ⊢
  rw [hframe]
  cases x.2 <;> rfl

theorem attention_external (u : State) (n : PortNo) (x : Port × Bool) (r : RefMonitor) :
    (({ u with ref := r } : State).changeCounted n x).attention = (u.changeCounted n x).attention := by
  have hport : (({ u with ref := r } : State).changePort n x.1).attention = (u.changePort n x.1).attention := by
    rw [attention_changePort, attention_changePort]
    simp
  unfold State.changeCounted
  rw [attention_postIf, attention_postIf, hport]

theorem ports_changeCounted (s : State) (n : PortNo) (x : Port × Bool) :
    (s.changeCounted n x).ports = s.ports.set n x.1 := by
  rw [changeCounted_frame]

theorem ref_changeCounted (s : State) (n : PortNo) (x : Port × Bool) :
    (s.changeCounted n x).ref = (s.changePort n x.1).ref := by
  rw [changeCounted_frame]

theorem port_changeCounted_same (s : State) (n : PortNo) (x : Port × Bool) :
    (s.changeCounted n x).ports[n] = x.1 := by
  rw [ports_changeCounted, set_get_same]

theorem port_changeCounted_ne (s : State) {n k : PortNo} (x : Port × Bool) (h : k ≠ n) :
    (s.changeCounted n x).ports[k] = s.ports[k] := by
  rw [ports_changeCounted, set_get_ne _ _ h]

/-- A frame of a port that is not selected makes no mark. -/
theorem frameMark_other {s : State} {n : PortNo} (hsel : s.ref.selection ≠ .port n) (m : Nat)
    (bits : List Bool) : s.frameMark n m bits = s := if_neg fun h => hsel h.2.1

/-- The mark that a frame makes, by its place and its moment (R23, R27, R103). -/
theorem frameMark_cases {s : State} {n : PortNo} {m offset count : Nat} {bits : List Bool} {coming : Prop}
    (ha : s.ports[n].aligned = true) (hsel : s.ref.selection = .port n)
    (hoffset : offset = (s.ports[n].framer.place - s.ports[n].txPlace).val)
    (hcount : count = min 8 bits.length)
    (hcoming : coming ↔ offset = 0 ∧ m = s.ref.lastStart + 125000 ∧ s.ref.state = .freewheel ∧
      15 ≤ s.ref.good ∧ ∃ l, s.ref.lastMark = some l ∧ l + 124000 ≤ m ∧ m ≤ l + 126000)
    (hb : s.ports[n].framer.overhead = [] ∧ bits ≠ []) :
    (s.ports[n].maint.loop ≠ .inwardHost → s.frameMark n m bits = s.mark m) ∧
      (s.ports[n].maint.loop = .inwardHost → coming → s.frameMark n m bits = s.mark m) ∧
      (s.ports[n].maint.loop = .inwardHost → ¬ coming → offset + count ≤ 288 →
        s.frameMark n m bits = s.mark (s.ref.lastStart + (offset * 125000 + 287) / 288)) ∧
      (s.ports[n].maint.loop = .inwardHost → 288 < offset + count → s.frameMark n m bits = s) := by
  have hbegins : s.ports[n].begins bits = true := begins_iff.mpr ⟨ha, hb⟩
  have hlength : (bits.take 8).length = count := by rw [List.length_take, hcount]
  have hlate : s.ports[n].marksLate (bits.take 8).length = true ↔
      s.ports[n].maint.loop = .inwardHost ∧ 288 < offset + count := by
    rw [marksLate_iff, hlength, hoffset]
  have hbefore : s.markBeforeStart n m = true ↔ coming := by
    rw [markBeforeStart_iff, hcoming, hoffset]
  have hmark : ¬ (s.ports[n].maint.loop = .inwardHost ∧ 288 < offset + count) →
      s.frameMark n m bits = s.mark (s.markMoment n m) := fun h =>
    frameMark_mark hbegins hsel (eq_false_of_ne_true (hlate.not.mpr h))
  refine ⟨fun hl => ?_, fun hl hc => ?_, fun hl hc hle => ?_, fun hl hlt => ?_⟩
  · rw [hmark fun h => hl h.1, State.markMoment, if_neg fun h => hl (inward_iff.mp h.1)]
  · have h0 := (hcoming.mp hc).1
    have hle : count ≤ 8 := hcount ▸ min_le_left ..
    rw [hmark fun h => by omega, State.markMoment, if_neg fun h => ?_]
    rw [hbefore.mpr hc] at h
    cases h.2
  · rw [hmark fun h => by omega, State.markMoment,
      if_pos ⟨inward_iff.mpr hl, eq_false_of_ne_true (hbefore.not.mpr hc)⟩, State.bitMoment, bitsNs_eq, Port.offset,
      hoffset]
  · refine if_neg fun h => ?_
    rw [hlate.mpr ⟨hl, hlt⟩] at h
    cases h.2.2

/-- Settles O28: a mark reads neither selection nor RST; the frame's mark; and the frame received after it. -/
theorem selectedPortFrameIsMark : Obligations.SelectedPortFrameIsMark := by
  refine ⟨fun s m => ?_, fun s n m offset count nibble symbol begins coming ha hsel hoffset hcount hbegins hcoming => ?_⟩
  · have hexec : exec (.sfrMark m) (external s) = .next ((external s).mark m) := exec_sfrMark rfl rfl
    rw [external_mark] at hexec
    exact hexec
  obtain ⟨hselection, haligned⟩ := frameMark_keeps s n m (nibble ++ symbol)
  rw [ha] at haligned
  rw [exec_alignedFrameReceived]
  have hnone : ¬ begins → s.frameMark n m (nibble ++ symbol) = s := fun hb =>
    if_neg fun h => hb (hbegins.mpr (begins_iff.mp h.1).2)
  have hcases := fun hb => frameMark_cases ha hsel hoffset hcount hcoming (hbegins.mp hb)
  generalize s.frameMark n m (nibble ++ symbol) = u at hselection haligned hnone hcases
  set x := (u.ports[n].locate u.ref.lastStart m (nibble ++ symbol)).receive (nibble ++ symbol) with hx
  set r : RefMonitor := { u.ref with selection := .external } with hr
  refine ⟨u.changeCounted n x, u, ({ u with ref := r } : State).changeCounted n x, rfl, hnone,
    fun hb => (hcases hb).1, fun hb => (hcases hb).2.1, fun hb => (hcases hb).2.2.1,
    fun hb => (hcases hb).2.2.2, ?_, ?_, ?_, ?_, fun k hk => port_changeCounted_ne u x hk, fun hstay => ?_, fun hleft => ?_⟩
  · rw [exec_alignedFrameReceived, frameMark_other (s := { u with ref := r }) (by simp [hr])]
  · rw [ports_changeCounted, ports_changeCounted]
  · exact (attention_external u n x r).symm
  · have hframe := changeCounted_frame u n x
    rw [← ref_changeCounted, ← ports_changeCounted] at hframe
    exact hframe
  · rw [port_changeCounted_same] at hstay
    rw [ref_changeCounted, ref_changePort, if_neg fun h => ?_]
    rw [hstay] at h
    cases h.2.1
  · rw [port_changeCounted_same] at hleft
    rw [ref_changeCounted, ref_changePort, if_pos ⟨haligned, hleft, hselection.trans hsel⟩]
    rfl

end Sys2Proof.Proofs
end

section
/-! PROOFS. The interchange at a system frame start: what each record of the set leaves in the tables, and
what the whole set leaves (O21 to O24). -/

namespace Sys2Proof.Proofs

open Sys2Proof Sys2Proof.Machine

/-! ### One record of the set -/

/-- What becomes of a record of the set (R53, R99). -/
def takenRecord (r : Record) : Option Record := if r.state = .retiring then none else some r.completed

theorem recompute_none {s : State} {id : Nat} (h : s.records.get id = none) : s.recompute id = s := by
  rw [State.recompute, h]

theorem recompute_retiring {s : State} {id : Nat} {r : Record} (hr : s.records.get id = some r)
    (hstate : r.state = .retiring) : s.recompute id = s.retireAtFrame id r := by
  simp only [State.recompute, hr, if_pos hstate]

theorem recompute_installs {s : State} {id : Nat} {r : Record} (hr : s.records.get id = some r)
    (hstate : r.state ≠ .retiring) : s.recompute id =
      (installed s id r).postIf (r.state == .staged) (.record id) .state := by
  simp only [State.recompute, hr, if_neg hstate]
  rfl

/-- A record of the set: what is there of the state after it. -/
theorem recompute_cases (s : State) (id : Nat) :
    (s.records.get id = none ∧ s.recompute id = s) ∨
      ∃ r, s.records.get id = some r ∧ (r.state = .retiring ∧ s.recompute id = s.retireAtFrame id r ∨
        r.state ≠ .retiring ∧
          s.recompute id = (installed s id r).postIf (r.state == .staged) (.record id) .state) := by
  cases hr : s.records.get id with
  | none => exact .inl ⟨rfl, recompute_none hr⟩
  | some r =>
    refine .inr ⟨r, rfl, ?_⟩
    by_cases hstate : r.state = .retiring
    · exact .inl ⟨hstate, recompute_retiring hr hstate⟩
    · exact .inr ⟨hstate, recompute_installs hr hstate⟩

theorem records_recompute (s : State) (id j : Nat) : (s.recompute id).records.get j =
    if j = id then (s.records.get id).bind takenRecord else s.records.get j := by
  obtain ⟨hr, heq⟩ | ⟨r, hr, ⟨hstate, heq⟩ | ⟨hstate, heq⟩⟩ := recompute_cases s id
  · rw [heq, hr]
    split
    case isTrue hj => rw [hj, hr]; rfl
    case isFalse => rfl
  · have hrecords : (s.recompute id).records = s.records.del id := by rw [heq]; rfl
    rw [hrecords, Table.get_del, hr, Option.bind_some, takenRecord, if_pos hstate]
  · have hrecords : (s.recompute id).records = s.records.put id r.completed := by
      rw [heq, records_postIf]
      rfl
    rw [hrecords, Table.get_put, hr, Option.bind_some, takenRecord, if_neg hstate]

/-- The transmit slots that a record's frame start writes are its own. -/
theorem touches {r : Record} {j : Nat} (hj : j ∉ r.txKeys) :
    j ∉ r.completed.txKeys ∧ j ∉ r.goingDests.flatMap fun d => d.dest.txKeys r.width := by
  simp only [Record.txKeys, List.mem_append, not_or] at hj ⊢
  obtain ⟨hdests, hsource⟩ := hj
  refine ⟨⟨fun hmem => hdests ?_, hsource⟩, fun hmem => hdests ?_⟩
  · obtain ⟨d, hd, hk⟩ := List.mem_flatMap.mp hmem
    obtain ⟨-, d0, hd0, heq⟩ := mem_dests_completed hd
    exact List.mem_flatMap.mpr ⟨d0, hd0, by rw [heq]; exact hk⟩
  · obtain ⟨d, hd, hk⟩ := List.mem_flatMap.mp hmem
    exact List.mem_flatMap.mpr ⟨d, List.mem_of_mem_filter hd, hk⟩

theorem get_writeDests_other {r : Record} {f : Feed} {l : List Dest} {t : Table Selection} {j : Nat}
    (hj : j ∉ l.flatMap fun d => d.dest.txKeys r.width) : (writeDests r f l t).get j = t.get j := by
  induction l generalizing t with
  | nil => rfl
  | cons d l ih =>
    rw [List.flatMap_cons, List.mem_append, not_or] at hj
    exact (ih hj.2).trans (get_writeEnd_other r f d.dest t hj.1)

theorem get_writeRecord_other {r : Record} {c : Option Context} {t : Table Selection} {j : Nat}
    (hj : j ∉ r.txKeys) : (writeRecord r c t).get j = t.get j := by
  simp only [Record.txKeys, List.mem_append, not_or] at hj
  rw [writeRecord_eq]
  split
  case h_1 f hf =>
    have hsource := hj.2
    rw [if_pos (feedBA_some hf)] at hsource
    rw [get_writeEnd_other _ _ _ _ hsource, get_writeDests_other hj.1]
  case h_2 => exact get_writeDests_other hj.1

theorem selections_recompute_other {s : State} {id j : Nat}
    (h : ∀ r, s.records.get id = some r → j ∉ r.txKeys) :
    (s.recompute id).selections.get j = s.selections.get j := by
  obtain ⟨-, heq⟩ | ⟨r, hr, ⟨-, heq⟩ | ⟨-, heq⟩⟩ := recompute_cases s id
  · rw [heq]
  · have hsel : (s.recompute id).selections = s.selections.delKeys r.txKeys := by rw [heq]; rfl
    rw [hsel, Table.get_delKeys, if_neg (h r hr)]
  · obtain ⟨hkept, hgoing⟩ := touches (h r hr)
    rw [heq, selections_postIf]
    refine (get_writeRecord_other hkept).trans ?_
    exact (Table.get_delKeys ..).trans (if_neg hgoing)

/-- No context comes about or changes: those of freed records go (R126). -/
theorem contexts_recompute {s : State} {id k : Nat} {c : Context}
    (h : (s.recompute id).contexts.get k = some c) : s.contexts.get k = some c := by
  obtain ⟨-, heq⟩ | ⟨r, -, ⟨-, heq⟩ | ⟨-, heq⟩⟩ := recompute_cases s id
  · rwa [heq] at h
  · have hcontexts : (s.recompute id).contexts = r.context.elim s.contexts s.contexts.del := by
      rw [heq, ← contexts_freed s id r]
      rfl
    rw [hcontexts] at h
    cases hk : r.context with
    | none => rwa [hk] at h
    | some k' =>
      rw [hk, Option.elim_some, Table.get_del] at h
      split at h
      · cases h
      · exact h
  · rw [heq, contexts_postIf] at h
    exact h

theorem linked_recompute {s : State} (h : Linked s) (id : Nat) : Linked (s.recompute id) :=
  (tableMoves_recompute s id).preserve (fun _ _ => TableMove.keeps_linked) h

/-- What is posted stays posted. -/
theorem posted_recompute {s : State} {id : Nat} {x : Subject}
    (h : ∃ e ∈ s.attention, e.subject = x ∧ e.summary.has .state = true) :
    ∃ e ∈ (s.recompute id).attention, e.subject = x ∧ e.summary.has .state = true := by
  obtain ⟨-, heq⟩ | ⟨r, -, ⟨-, heq⟩ | ⟨-, heq⟩⟩ := recompute_cases s id
  · rwa [heq]
  · have hlist : (s.recompute id).attention = postTo s.attention (.record id) .state := by
      rw [heq, ← attention_freeRecord s id r]
      rfl
    rw [hlist]
    exact postTo_keeps h
  · rw [heq, attention_postIf]
    split
    · exact postTo_keeps h
    · exact h

/-! ### The whole set -/

theorem mem_pendingSet {s : State} (w : s.records.wf) {id : Nat} :
    id ∈ s.pendingSet ↔ ∃ r, s.records.get id = some r ∧ r.pending = true := by
  simp only [State.pendingSet, Table.keys, List.mem_map, List.mem_filter]
  constructor
  · rintro ⟨⟨i, r⟩, ⟨hmem, hp⟩, rfl⟩
    exact ⟨r, Table.mem_get w hmem, hp⟩
  · rintro ⟨r, hr, hp⟩
    exact ⟨(id, r), ⟨Table.get_some_mem hr, hp⟩, rfl⟩

theorem nodup_pendingSet {s : State} (w : s.records.wf) : s.pendingSet.Nodup := by
  have hpairs := Table.wf_filter w (fun e => e.2.pending)
  exact List.pairwise_map.mpr (hpairs.imp fun h => Nat.ne_of_lt h)

theorem records_foldl {l : List Nat} (hl : l.Nodup) (s : State) (j : Nat) :
    (l.foldl State.recompute s).records.get j =
      if j ∈ l then (s.records.get j).bind takenRecord else s.records.get j := by
  induction l generalizing s with
  | nil => rfl
  | cons id l ih =>
    obtain ⟨hid, hl⟩ := List.nodup_cons.mp hl
    rw [List.foldl_cons, ih hl, records_recompute]
    by_cases hj : j = id
    · subst hj
      rw [if_neg hid, if_pos rfl, if_pos (List.mem_cons_self ..)]
    · rw [if_neg hj]
      exact if_congr (by simp [hj]) rfl rfl

theorem records_applyPending {s : State} (w : s.records.wf) (j : Nat) : s.applyPending.records.get j =
    if j ∈ s.pendingSet then (s.records.get j).bind takenRecord else s.records.get j :=
  records_foldl (nodup_pendingSet w) s j

theorem selections_foldl {l : List Nat} (hl : l.Nodup) {s : State} {j : Nat}
    (h : ∀ id ∈ l, ∀ r, s.records.get id = some r → j ∉ r.txKeys) :
    (l.foldl State.recompute s).selections.get j = s.selections.get j := by
  induction l generalizing s with
  | nil => rfl
  | cons id l ih =>
    obtain ⟨hid, hl⟩ := List.nodup_cons.mp hl
    rw [List.foldl_cons, ih hl fun i hi r hr => ?_]
    · exact selections_recompute_other (h id (List.mem_cons_self ..))
    · have hne : i ≠ id := fun heq => hid (heq ▸ hi)
      rw [records_recompute, if_neg hne] at hr
      exact h i (List.mem_cons_of_mem _ hi) r hr

theorem contexts_foldl {l : List Nat} {s : State} {k : Nat} {c : Context}
    (h : (l.foldl State.recompute s).contexts.get k = some c) : s.contexts.get k = some c := by
  induction l generalizing s with
  | nil => exact h
  | cons id l ih => exact contexts_recompute (ih h)

theorem linked_foldl {s : State} (h : Linked s) (l : List Nat) : Linked (l.foldl State.recompute s) :=
  foldl_preserves (P := Linked) (fun _ id hu => linked_recompute hu id) l h

theorem posted_foldl {s : State} {x : Subject} (l : List Nat)
    (h : ∃ e ∈ s.attention, e.subject = x ∧ e.summary.has .state = true) :
    ∃ e ∈ (l.foldl State.recompute s).attention, e.subject = x ∧ e.summary.has .state = true :=
  foldl_preserves (P := fun u => ∃ e ∈ u.attention, e.subject = x ∧ e.summary.has .state = true)
    (fun _ _ hu => posted_recompute hu) l h

/-- The set with one record of it singled out: it is taken from a state in which it stands with its context
as before, and the rest of the set follows. -/
theorem applyPending_around {s : State} (h : Linked s) {id : Nat} {r : Record} (hr : s.records.get id = some r)
    (hp : r.pending = true) : ∃ (u : State) (l : List Nat), Linked u ∧ u.records.get id = some r ∧ u.contextOf r = s.contextOf r ∧
      l.Nodup ∧ id ∉ l ∧ s.applyPending = l.foldl State.recompute (u.recompute id) := by
  have hmem := (mem_pendingSet h.tables.records).mpr ⟨r, hr, hp⟩
  have hnodup := nodup_pendingSet h.tables.records
  obtain ⟨before, after, hsplit⟩ := List.append_of_mem hmem
  rw [hsplit] at hnodup
  have hparts := List.nodup_append.mp hnodup
  obtain ⟨hafter, hafterNodup⟩ := List.nodup_cons.mp hparts.2.1
  have hbefore : id ∉ before := fun hin => hparts.2.2 id hin id (List.mem_cons_self ..) rfl
  have hu := linked_foldl h before
  have hget : (before.foldl State.recompute s).records.get id = some r := by
    rw [records_foldl hparts.1, if_neg hbefore, hr]
  refine ⟨before.foldl State.recompute s, after, hu, hget, ?_, hafterNodup, hafter, ?_⟩
  · cases hk : r.context with
    | none => simp [State.contextOf, hk]
    | some k =>
      obtain ⟨c, hc, -⟩ := (hu.binds k id).mp ⟨r, hget, hk⟩
      rw [contextOf_eq_some.mpr ⟨hk, hc⟩, contextOf_eq_some.mpr ⟨hk, contexts_foldl hc⟩]
  · rw [State.applyPending, hsplit, List.foldl_append, List.foldl_cons]

/-- A slot that no record of the rest of the set holds keeps its selection. -/
theorem selections_rest {v : State} (h : Linked v) {l : List Nat} (hl : l.Nodup) {j : Nat}
    (hfree : ∀ id ∈ l, v.slotMap.get (16 * Config.frameSlots + j) ≠ some id) :
    (l.foldl State.recompute v).selections.get j = v.selections.get j :=
  selections_foldl hl fun id hid r hr hj =>
    hfree id hid ((owns_keys h.owns hr _).mpr ((tx_slotKeys (h.inv id r hr)).mpr hj))

/-! ### What a system frame start leaves of the tables -/

/-- The tables of a system frame start. -/
theorem tables_frameStart (s : State) : s.frameStart.records = (framesTaken s).applyPending.records ∧
    s.frameStart.slotMap = (framesTaken s).applyPending.slotMap ∧
    s.frameStart.selections = (framesTaken s).applyPending.selections ∧
    s.frameStart.attention = (framesTaken s).applyPending.attention := by
  rw [frameStart_eq, interchanged]
  generalize (framesTaken s).applyPending = u
  exact ⟨rfl, rfl, rfl, rfl⟩

theorem contexts_frameStart (s : State) : s.frameStart.contexts =
    (framesTaken s).applyPending.contexts.mapValues
      fun _ c => if s.frameStart.inService c.record then c.tick else c := by
  rw [frameStart_eq, interchanged]
  generalize (framesTaken s).applyPending = u
  rfl

theorem linked_framesTaken {s : State} (h : Linked s) : Linked (framesTaken s) := linked_congr h rfl

theorem linked_frameStart {s : State} (h : Linked s) : Linked s.frameStart :=
  (tableMoves_frameStart s).preserve (fun _ _ => TableMove.keeps_linked) h

theorem records_frameStart {s : State} (w : s.records.wf) (j : Nat) : s.frameStart.records.get j =
    if j ∈ s.pendingSet then (s.records.get j).bind takenRecord else s.records.get j := by
  rw [(tables_frameStart s).1]
  exact records_applyPending (s := framesTaken s) w j

/-! ### Timers (R139, R156) -/

theorem loopTimer_burst (m : Maint) : m.burstFrame.tick.loopTimer = m.tick.loopTimer ∧
    m.burstFrame.tick.loopMark = m.tick.loopMark := by
  unfold Maint.tick Maint.burstFrame
  dsimp only
  repeat' split
  all_goals exact ⟨rfl, rfl⟩

theorem loopTimer_frameStart (s : State) (n : PortNo) :
    s.frameStart.ports[n].maint.loopTimer = s.ports[n].maint.tick.loopTimer ∧
      s.frameStart.ports[n].maint.loopMark = s.ports[n].maint.tick.loopMark := by
  rw [maint_frameStart]
  split
  · exact loopTimer_burst _
  · exact ⟨rfl, rfl⟩

theorem tick_stopped {m : Maint} (h : m.loopTimer = 0) : m.tick = m := if_pos h

theorem tick_last {m : Maint} (h : m.loopTimer = 1) : m.tick = { m with loopMark := .due } := by
  rw [Maint.tick, if_neg (by omega), if_pos h]

theorem tick_running {m : Maint} (h : 1 < m.loopTimer) : m.tick = { m with loopTimer := m.loopTimer - 1 } := by
  rw [Maint.tick, if_neg (by omega), if_neg (by omega)]

theorem contextTick_other {c : Context} (h : c.request ≠ .restoreWait) : c.tick = c := if_neg h

theorem contextTick_plain {c : Context} (h : c.request = .restoreWait) (hm : c.wtrMark = .plain) :
    c.tick = if c.wtrLeft ≤ 1 then { c with wtrMark := .due } else { c with wtrLeft := c.wtrLeft - 1 } := by
  simp only [Context.tick, if_pos h, hm]

theorem contextTick_fresh {c : Context} (h : c.request = .restoreWait) (hm : c.wtrMark = .fresh) :
    c.tick = { c with wtrMark := .plain } := by
  simp only [Context.tick, if_pos h, hm]

/-- Settles O21: the loop timers, and the wait-to-restore timers of the contexts that stay bound. -/
theorem frameStartCountsTimers : Obligations.FrameStartCountsTimers := by
  refine fun s => ⟨fun n => ?_, fun k c hc => ?_⟩
  · obtain ⟨htimer, hmark⟩ := loopTimer_frameStart s n
    rw [htimer, hmark]
    refine ⟨fun h => ?_, fun h => ?_, fun h => ?_⟩
    · rw [tick_stopped h, h]
    · rw [tick_last h]
    · rw [tick_running h]
  · rw [contexts_frameStart, Table.get_mapValues] at hc
    obtain ⟨c0, hc0, heq⟩ := Option.map_eq_some_iff.mp hc
    have hrecord : c.record = c0.record := by
      rw [← heq]
      split
      · exact record_tick c0
      · rfl
    rw [hrecord]
    have hticks : s.frameStart.inService c0.record = true → c = c0.tick := fun h => by
      rw [← heq, if_pos h]
    have hold : (framesTaken s).contexts.get k = some c0 := contexts_foldl hc0
    refine ⟨c0, hold, fun hin hw hm hlt => ?_, fun hin hw hm hle => ?_, fun hin hw hm => ?_, ?_⟩
    · rw [hticks hin, contextTick_plain hw hm, if_neg (by omega)]
    · rw [hticks hin, contextTick_plain hw hm, if_pos hle]
    · rw [hticks hin, contextTick_fresh hw hm]
    · rintro (hout | hne)
      · rw [← heq, if_neg (ne_true_of_eq_false hout)]
      · rw [← heq, contextTick_other hne, ite_self]

end Sys2Proof.Proofs
end

section
/-! PROOFS. The pending-change set after a system frame start (O22), a RETIRING record there (O23), and what is
installed for the others (O24). -/

namespace Sys2Proof.Proofs

open Sys2Proof Sys2Proof.Machine

/-! ### Every change in flight is completed -/

theorem inv_of_mapInv {s : State} (h : s.MapInv) {id : Nat} {r : Record} (hr : s.records.get id = some r) :
    r.Inv := h.records _ (Table.get_some_mem hr)

/-- A record with nothing in flight (R93). -/
theorem settled_of_not_pending {r : Record} (h : r.Inv) (hp : r.pending = false) :
    r.leaving = none ∧ (r.state = .active ∨ r.state = .held) ∧ ∀ d ∈ r.dests, d.state = .inService := by
  have hnone : ¬ (r.state = .staged ∨ r.state = .retiring ∨ r.leaving.isSome = true ∨
      ∃ d ∈ r.dests, d.state ≠ .inService) := fun hf => by
    rw [h.inFlight hf] at hp
    cases hp
  simp only [not_or, not_exists, not_and, not_not, Option.not_isSome_iff_eq_none] at hnone
  obtain ⟨hstaged, hretiring, hleaving, hdests⟩ := hnone
  refine ⟨hleaving, ?_, hdests⟩
  cases hs : r.state <;> simp_all

theorem settled_completed {r : Record} (hstate : r.state ≠ .retiring) :
    r.completed.pending = false ∧ r.completed.leaving = none ∧
      (r.completed.state = .active ∨ r.completed.state = .held) ∧
      ∀ d ∈ r.completed.dests, d.state = .inService := by
  refine ⟨rfl, rfl, ?_, fun d hd => (mem_dests_completed hd).1⟩
  cases hs : r.state <;> simp_all [Record.completed]

/-- A record after a system frame start is one that was not pending, or one of the set completed. -/
theorem record_frameStart {s : State} (w : s.records.wf) {id : Nat} {r : Record}
    (hr : s.frameStart.records.get id = some r) : (s.records.get id = some r ∧ r.pending = false) ∨
      ∃ r0, s.records.get id = some r0 ∧ r0.state ≠ .retiring ∧ r = r0.completed := by
  rw [records_frameStart w] at hr
  split at hr
  case isTrue =>
    obtain ⟨r0, hr0, htaken⟩ := Option.bind_eq_some_iff.mp hr
    rw [takenRecord] at htaken
    split at htaken
    case isTrue => cases htaken
    case isFalse hstate => exact .inr ⟨r0, hr0, hstate, (Option.some.inj htaken).symm⟩
  case isFalse hnot =>
    refine .inl ⟨hr, eq_false_of_ne_true fun hp => hnot ?_⟩
    exact (mem_pendingSet w).mpr ⟨r, hr, hp⟩

theorem records_frameStart_settled {s : State} (h : s.MapInv) {id : Nat} {r : Record}
    (hr : s.frameStart.records.get id = some r) : r.pending = false ∧ r.leaving = none ∧
      (r.state = .active ∨ r.state = .held) ∧ ∀ d ∈ r.dests, d.state = .inService := by
  obtain ⟨hold, hp⟩ | ⟨r0, -, hstate, rfl⟩ := record_frameStart h.tables.records hr
  · exact ⟨hp, settled_of_not_pending (inv_of_mapInv h hold) hp⟩
  · exact settled_completed hstate

theorem wf_frameStart {s : State} (h : s.TablesWf) : s.frameStart.TablesWf :=
  (tableMoves_frameStart s).preserve (fun _ _ => TableMove.keeps_tablesWf) h

/-- A slot that no pending record holds keeps its selection (R95). -/
theorem selections_unheld {s : State} (h : s.MapInv) {j : Nat}
    (hnone : ∀ id r, s.slotMap.get (16 * Config.frameSlots + j) = some id → s.records.get id = some r →
      r.pending = false) : s.applyPending.selections.get j = s.selections.get j := by
  refine selections_foldl (nodup_pendingSet h.tables.records) fun id hid r hr hmem => ?_
  obtain ⟨r', hr', hp⟩ := (mem_pendingSet h.tables.records).mp hid
  rw [hr] at hr'
  cases hr'
  obtain ⟨t, ht, htk⟩ := List.mem_map.mp ((tx_slotKeys (inv_of_mapInv h hr)).mpr hmem)
  have hheld := h.held _ (Table.get_some_mem hr) t ht
  rw [htk] at hheld
  rw [hnone id r hheld hr] at hp
  cases hp

theorem mapInv_congr {s t : State} (h : s.MapInv) (ht : tableSide t = tableSide s) : t.MapInv := by
  obtain ⟨hr, hm, hs, -, -⟩ := tableSide_eq_iff.mp ht
  obtain ⟨tables, records, held, named, selected⟩ := h
  refine ⟨tablesWf_congr tables ht, ?_, ?_, ?_, ?_⟩
  · rwa [hr]
  · rwa [hr, hm]
  · rwa [hr, hm]
  · rwa [hr, hm, hs]

theorem mapInv_framesTaken {s : State} (h : s.MapInv) : (framesTaken s).MapInv := mapInv_congr h rfl

/-- Settles O22: every record of the set taken, the others and the slots of no pending record as they were. -/
theorem frameStartCompletesChangesInFlight : Obligations.FrameStartCompletesChangesInFlight := by
  intro s h
  have w := h.tables.records
  refine ⟨?_, fun id r hr => records_frameStart_settled h hr, fun id r hr => ⟨fun hp => ?_, fun hp hstate => ?_⟩,
    fun id hr => ?_, fun n slot h1 h2 hnone => ?_⟩
  · refine List.eq_nil_iff_forall_not_mem.mpr fun id hid => ?_
    obtain ⟨r, hr, hp⟩ := (mem_pendingSet (wf_frameStart h.tables).records).mp hid
    rw [(records_frameStart_settled h hr).1] at hp
    cases hp
  · rw [records_frameStart w, if_neg fun hmem => ?_, hr]
    obtain ⟨r', hr', hp'⟩ := (mem_pendingSet w).mp hmem
    rw [hr] at hr'
    cases hr'
    rw [hp] at hp'
    cases hp'
  · rw [records_frameStart w, if_pos ((mem_pendingSet w).mpr ⟨r, hr, hp⟩), hr, Option.bind_some, takenRecord,
      if_neg hstate]
    rfl
  · rw [records_frameStart w, hr]
    exact ite_self _
  · have hkept := selections_unheld (mapInv_framesTaken h) (j := txKey n slot) hnone
    rw [State.selection, State.selection, (tables_frameStart s).2.2.1, hkept]
    rfl

/-! ### A record of the set and the others -/

/-- A selection at a key as it reads. -/
def selectionAtKey (s : State) (j : Nat) : Selection := (s.selections.get j).getD .idle

theorem selection_eq (s : State) (n : PortNo) (slot : Nat) :
    s.selection n slot = selectionAtKey s (txKey n slot) := rfl

/-- What a record's own frame start writes on a slot stands after the whole set, where after it no other
record holds the slot. -/
theorem selection_settled {s : State} (h : Linked s) {id : Nat} {r : Record} (hr : s.records.get id = some r)
    (hp : r.pending = true) {j : Nat} {sel : Selection}
    (hown : ∀ u : State, Linked u → u.records.get id = some r → u.contextOf r = s.contextOf r →
      selectionAtKey (u.recompute id) j = sel ∧
        ∀ i, (u.recompute id).slotMap.get (16 * Config.frameSlots + j) = some i → i = id) :
    selectionAtKey s.frameStart j = sel := by
  obtain ⟨u, l, hu, hget, hcontext, hl, hid, heq⟩ :=
    applyPending_around (linked_framesTaken h) (id := id) (r := r) hr hp
  obtain ⟨hsel, hmap⟩ := hown u hu hget hcontext
  rw [selectionAtKey, (tables_frameStart s).2.2.1, heq,
    selections_rest (linked_recompute hu id) hl fun i hi hi' => hid (hmap i hi' ▸ hi)]
  exact hsel

/-- A posting with STATE at the record's own frame start stands after the whole set. -/
theorem posted_settled {s : State} (h : Linked s) {id : Nat} {r : Record} (hr : s.records.get id = some r)
    (hp : r.pending = true) (hpost : ∀ u : State, u.records.get id = some r →
      ∃ e ∈ (u.recompute id).attention, e.subject = .record id ∧ e.summary.has .state = true) :
    ∃ e ∈ s.frameStart.attention, e.subject = .record id ∧ e.summary.state = true := by
  obtain ⟨u, l, -, hget, -, -, -, heq⟩ := applyPending_around (linked_framesTaken h) (id := id) (r := r) hr hp
  rw [(tables_frameStart s).2.2.2, heq]
  exact posted_foldl l (hpost u hget)

/-! ### A RETIRING record -/

theorem selections_retired (s : State) (id : Nat) (r : Record) :
    (s.retireAtFrame id r).selections = s.selections.delKeys r.txKeys := rfl

theorem retired_unheld {u : State} (hu : Linked u) {id : Nat} {r : Record} (hr : u.records.get id = some r)
    (hstate : r.state = .retiring) {j : Nat} (hj : j ∈ r.txKeys) :
    selectionAtKey (u.recompute id) j = .idle ∧
      ∀ i, (u.recompute id).slotMap.get (16 * Config.frameSlots + j) = some i → i = id := by
  have hinv := hu.inv id r hr
  rw [recompute_retiring hr hstate, selectionAtKey, selections_retired, Table.get_delKeys, if_pos hj]
  refine ⟨rfl, fun i hi => ?_⟩
  have hmap : (u.retireAtFrame id r).slotMap = u.slotMap.delValue id := rfl
  rw [hmap, get_delValue hu.tables.slotMap,
    if_pos ((owns_keys hu.owns hr _).mpr ((tx_slotKeys hinv).mpr hj))] at hi
  cases hi

theorem mem_txKeys_dest {r : Record} {d : Dest} (hd : d ∈ r.dests) {k : Nat} (hk : k < r.width) :
    txKey d.dest.port (d.dest.first + k) ∈ r.txKeys :=
  List.mem_append_left _ (List.mem_flatMap.mpr ⟨d, hd, mem_txKeys.mpr ⟨k, hk, rfl⟩⟩)

theorem mem_txKeys_source {r : Record} (hkind : r.kind = .duplex) {k : Nat} (hk : k < r.width) :
    txKey r.source.port (r.source.first + k) ∈ r.txKeys :=
  List.mem_append_right _ (by rw [if_pos hkind]; exact mem_txKeys.mpr ⟨k, hk, rfl⟩)

/-- A context that a RETIRING record has is free from its frame start on (R126). -/
theorem unbound_retired {s : State} (h : Linked s) {id k : Nat} {r : Record} (hr : s.records.get id = some r)
    (hp : r.pending = true) (hstate : r.state = .retiring) (hk : r.context = some k) :
    s.frameStart.contexts.get k = none := by
  obtain ⟨u, l, -, hget, -, -, -, heq⟩ := applyPending_around (linked_framesTaken h) (id := id) (r := r) hr hp
  have hgone : (u.recompute id).contexts.get k = none := by
    rw [recompute_retiring hget hstate]
    have hcontexts : (u.retireAtFrame id r).contexts = (u.freeRecord id r).contexts := rfl
    rw [hcontexts, contexts_freed, hk]
    exact Table.get_del_same ..
  rw [contexts_frameStart, Table.get_mapValues, heq]
  refine Option.map_eq_none_iff.mpr (Option.eq_none_iff_forall_ne_some.mpr fun c hc => ?_)
  rw [contexts_foldl hc] at hgone
  cases hgone

/-- Settles O23: the record's own frame start, and nothing of it afterwards. -/
theorem retiringRecordIsFreedAtFrameStart : Obligations.RetiringRecordIsFreedAtFrameStart := by
  intro s id r hmap hbind hr hstate
  have h := linked_iff.mpr ⟨hmap, hbind⟩
  have hp : r.pending = true := (h.inv id r hr).inFlight (.inr (.inl hstate))
  have hgone : s.frameStart.records.get id = none := by
    rw [records_frameStart h.tables.records, if_pos ((mem_pendingSet h.tables.records).mpr ⟨r, hr, hp⟩), hr,
      Option.bind_some, takenRecord, if_pos hstate]
  have hidle : ∀ j ∈ r.txKeys, selectionAtKey s.frameStart j = .idle := fun j hj =>
    selection_settled h hr hp fun u hu hget _ => retired_unheld hu hget hstate hj
  refine ⟨hgone, fun k hk => ?_, fun k hk => unbound_retired h hr hp hstate hk,
    fun d hd j hj => hidle _ (mem_txKeys_dest hd hj), fun hkind j hj => hidle _ (mem_txKeys_source hkind hj), ?_⟩
  · obtain ⟨r', hr', -⟩ := ((linked_frameStart h).owns k id).mp hk
    rw [hgone] at hr'
    cases hr'
  · refine posted_settled h hr hp fun u hget => ?_
    rw [recompute_retiring hget hstate]
    have hlist : (u.retireAtFrame id r).attention = postTo (u.freeRecord id r).attention (.record id) .state := rfl
    rw [hlist]
    exact postTo_has ..

/-! ### The others: their slots apart from each other -/

/-- No transmit slot is a record's twice. -/
theorem nodup_txKeys {r : Record} (h : r.Inv) : r.txKeys.Nodup := by
  have hdistinct := h.distinct
  rw [Record.triples, List.append_assoc, List.map_append] at hdistinct
  have hconnect := (List.nodup_append.mp hdistinct).1
  cases hk : r.kind with
  | duplex =>
    obtain ⟨e, he⟩ := h.single (by rw [hk]; decide)
    simp only [connectTriples, hk, he, List.map_append, List.map_cons, List.map_nil, List.flatMap_cons,
      List.flatMap_nil, List.append_nil, key_tx] at hconnect
    have hsub : ((r.source.txKeys r.width).map (16 * Config.frameSlots + ·) ++
        (e.txKeys r.width).map (16 * Config.frameSlots + ·)).Nodup := by
      refine hconnect.sublist (.append ?_ ?_)
      · exact List.sublist_append_right ..
      · exact List.sublist_append_right ..
    rw [← List.map_append] at hsub
    have hnodup := List.Nodup.of_map _ hsub
    simp only [Record.txKeys, hk, he, if_true, List.flatMap_cons, List.flatMap_nil, List.append_nil]
    exact List.nodup_append_comm.mp hnodup
  | simplex | branch =>
    simp only [connectTriples, hk, List.map_append, List.flatMap_map, List.map_flatMap, key_tx] at hconnect
    have hsub := (List.nodup_append.mp hconnect).2.1
    rw [← List.map_flatMap] at hsub
    have hnodup := List.Nodup.of_map _ hsub
    simpa [Record.txKeys, hk] using hnodup

theorem writeDests_cons (r : Record) (f : Feed) (d : Dest) (l : List Dest) (t : Table Selection) :
    writeDests r f (d :: l) t = writeDests r f l (writeEnd r f d.dest t) := rfl

/-- Each slot of a destination has the feed's selection, after all of them are written. -/
theorem get_writeDests_slot {r : Record} {f : Feed} {l : List Dest} {t : Table Selection}
    (hl : (l.flatMap fun d => d.dest.txKeys r.width).Nodup) {d : Dest} (hd : d ∈ l) {k : Nat} (hk : k < r.width) :
    (writeDests r f l t).get (txKey d.dest.port (d.dest.first + k)) = some (r.selectionAt f k) := by
  induction l generalizing t with
  | nil => cases hd
  | cons d0 l ih =>
    rw [List.flatMap_cons] at hl
    obtain ⟨-, hrest, hapart⟩ := List.nodup_append.mp hl
    obtain rfl | hd := List.mem_cons.mp hd
    · rw [writeDests_cons, get_writeDests_other fun hmem => ?_, get_writeEnd_slot r f d.dest t hk]
      exact hapart _ (mem_txKeys.mpr ⟨k, hk, rfl⟩) _ hmem rfl
    · exact ih hrest hd

theorem get_writeRecord_dest {r : Record} (h : r.Inv) {c : Option Context} {t : Table Selection} {d : Dest}
    (hd : d ∈ r.dests) {k : Nat} (hk : k < r.width) :
    (writeRecord r c t).get (txKey d.dest.port (d.dest.first + k)) = some (r.selectionAt (r.feedAB c) k) := by
  obtain ⟨hdests, -, hapart⟩ := List.nodup_append.mp (nodup_txKeys h)
  have hwritten := get_writeDests_slot (f := r.feedAB c) (t := t) hdests hd hk
  rw [writeRecord_eq]
  split
  case h_1 f hf =>
    refine (get_writeEnd_other _ _ _ _ fun hmem => ?_).trans hwritten
    refine hapart _ (List.mem_flatMap.mpr ⟨d, hd, mem_txKeys.mpr ⟨k, hk, rfl⟩⟩) _ ?_ rfl
    rwa [if_pos (feedBA_some hf)]
  case h_2 => exact hwritten

theorem get_writeRecord_source {r : Record} {c : Option Context} {t : Table Selection} {f : Feed}
    (hf : r.feedBA = some f) {k : Nat} (hk : k < r.width) :
    (writeRecord r c t).get (txKey r.source.port (r.source.first + k)) = some (r.selectionAt f k) := by
  rw [writeRecord_eq, hf]
  exact get_writeEnd_slot r f r.source _ hk

/-! ### What is installed -/

theorem completed_held (r : Record) : r.completed.state = .held ↔ r.state = .held := by
  simp only [Record.completed]
  split
  case isTrue h => simp [h]
  case isFalse => rfl

/-- The source of a direction that has not failed, else the conditioning code (R96, R98). -/
theorem selectionAt_completed (r : Record) (f : Feed) (k : Nat) : r.completed.selectionAt f k =
    if r.state = .held then .cond r.code
    else if f.bad then .cond r.code else .source f.source.port (f.source.first + k) := by
  simp only [Record.selectionAt, completed_held]
  by_cases hheld : r.state = .held
  · rw [if_pos (.inl hheld), if_pos hheld]
    rfl
  · rw [if_neg hheld]
    exact if_congr (or_iff_right hheld) rfl rfl

/-- Direction AB by the standby and the selected source (R96). -/
theorem feedAB_eq (r : Record) (o : Option (Nat × Context)) : r.completed.feedAB (o.map Prod.snd) =
    match r.standby, o.map (fun kc => kc.2.selected) with
    | some e, some .standby => ⟨e, r.standbyBad⟩
    | _, _ => ⟨r.source, r.healthAB.bad⟩ := by
  have hstandby : r.completed.standby = r.standby := rfl
  simp only [Record.feedAB, hstandby]
  cases o with
  | none => cases r.standby <;> rfl
  | some kc =>
    cases r.standby with
    | none => rfl
    | some e => cases hsel : kc.2.selected <;> simp only [Option.map_some, hsel] <;> rfl

theorem selections_installed (s : State) (id : Nat) (r : Record) : (installed s id r).selections =
    writeRecord r.completed ((s.contextOf r).map Prod.snd)
      (s.selections.delKeys (r.goingDests.flatMap fun d => d.dest.txKeys r.width)) := rfl

theorem slotMap_installed (s : State) (id : Nat) (r : Record) :
    (installed s id r).slotMap = s.slotMap.delKeys (r.goingTriples.map Triple.key) := rfl

/-- On a slot of the record its own frame start leaves no other holder. -/
theorem installed_holder {u : State} (hu : Linked u) {id : Nat} {r : Record} (hr : u.records.get id = some r)
    (hstate : r.state ≠ .retiring) {j : Nat} (hj : j ∈ r.txKeys) :
    ∀ i, (u.recompute id).slotMap.get (16 * Config.frameSlots + j) = some i → i = id := by
  intro i hi
  rw [recompute_installs hr hstate, slotMap_postIf, slotMap_installed, Table.get_delKeys] at hi
  split at hi
  · cases hi
  · rw [(owns_keys hu.owns hr _).mpr ((tx_slotKeys (hu.inv id r hr)).mpr hj)] at hi
    exact (Option.some.inj hi).symm

theorem selection_installs {s : State} (h : Linked s) {id : Nat} {r : Record} (hr : s.records.get id = some r)
    (hp : r.pending = true) (hstate : r.state ≠ .retiring) {j : Nat} (hj : j ∈ r.txKeys) {sel : Selection}
    (hwritten : ∀ t, ((writeRecord r.completed ((s.contextOf r).map Prod.snd)
      (Table.delKeys t (r.goingDests.flatMap fun d => d.dest.txKeys r.width))).get j).getD .idle = sel) :
    selectionAtKey s.frameStart j = sel := by
  refine selection_settled h hr hp fun u hu hget hcontext => ⟨?_, installed_holder hu hget hstate hj⟩
  rw [selectionAtKey, recompute_installs hget hstate, selections_postIf, selections_installed, hcontext]
  exact hwritten _

/-- An entry that stays is an entry of the completed record. -/
theorem mem_completed {r : Record} {d : Dest} (hd : d ∈ r.dests) (hstay : d.state ≠ .leaving) :
    ∃ d' ∈ r.completed.dests, d'.dest = d.dest := by
  have hmem : d.dest ∈ r.completed.dests.map (·.dest) := by
    rw [dests_completed]
    exact List.mem_map_of_mem (List.mem_filter.mpr ⟨hd, decide_eq_true hstay⟩)
  exact List.mem_map.mp hmem

/-- A slot given up is none of the completed record's. -/
theorem going_not_kept {r : Record} (h : r.Inv) (hstate : r.state ≠ .retiring) {j : Nat}
    (hj : j ∈ r.goingDests.flatMap fun d => d.dest.txKeys r.width) : j ∉ r.completed.txKeys := fun hk =>
  (slotKeys_completed h).2 ((tx_slotKeys (inv_completed h hstate)).mpr hk) ((tx_goingKeys h).mpr hj)

/-- Settles O24: the slots that stay, end A of a DUPLEX record, the slots given up, and the record itself. -/
theorem frameStartInstallsPendingRecord : Obligations.FrameStartInstallsPendingRecord := by
  intro s id r hmap hbind hr hp hstate
  have h := linked_iff.mpr ⟨hmap, hbind⟩
  have hinv := h.inv id r hr
  have hdone := inv_completed hinv hstate
  refine ⟨fun d hd hstay j hj => ?_, fun hkind d hd j hj => ?_, fun d hd hleave j hj => ?_, fun hstaged => ⟨?_, ?_⟩⟩
  · refine selection_installs h hr hp hstate (mem_txKeys_dest hd hj) fun t => ?_
    obtain ⟨d', hd', heq⟩ := mem_completed hd hstay
    rw [← heq, get_writeRecord_dest hdone hd' hj, Option.getD_some, selectionAt_completed, feedAB_eq]
    cases r.standby with
    | none => rfl
    | some e => cases (s.contextOf r).map (fun kc => kc.2.selected) with
      | none => rfl
      | some x => cases x <;> rfl
  · refine selection_installs h hr hp hstate (mem_txKeys_source hkind hj) fun t => ?_
    obtain ⟨e, he⟩ := hinv.single (by rw [hkind]; decide)
    rw [he] at hd
    cases List.mem_singleton.mp hd
    have hdests := (dests_completed_single hinv (by rw [hkind]; decide)).1.trans he
    have hfeed : r.completed.feedBA = some ⟨e, r.healthBA.elim false Health.bad⟩ := by
      have hk : r.completed.kind = .duplex := hkind
      simp only [Record.feedBA, hk, hdests]
      rfl
    have hbad : (r.healthBA.elim false Health.bad) = true ↔ ∃ x, r.healthBA = some x ∧ x.bad = true := by
      cases r.healthBA <;> simp
    have hslot := get_writeRecord_source (c := (s.contextOf r).map Prod.snd)
      (t := t.delKeys (r.goingDests.flatMap fun d => d.dest.txKeys r.width)) hfeed hj
    refine (congrArg (·.getD Selection.idle) hslot).trans ?_
    rw [Option.getD_some, selectionAt_completed]
    by_cases hheld : r.state = .held
    · rw [if_pos hheld, if_pos (.inl hheld)]
    · rw [if_neg hheld]
      exact if_congr (hbad.trans (or_iff_right hheld).symm) rfl rfl
  · refine selection_installs h hr hp hstate (mem_txKeys_dest hd hj) fun t => ?_
    have hgoing : txKey d.dest.port (d.dest.first + j) ∈ r.goingDests.flatMap fun d => d.dest.txKeys r.width :=
      List.mem_flatMap.mpr ⟨d, List.mem_filter.mpr ⟨hd, decide_eq_true hleave⟩, mem_txKeys.mpr ⟨j, hj, rfl⟩⟩
    rw [get_writeRecord_other (going_not_kept hinv hstate hgoing), Table.get_delKeys, if_pos hgoing]
    rfl
  · refine ⟨r.completed, ?_, by simp [Record.completed, hstaged]⟩
    rw [records_frameStart h.tables.records, if_pos ((mem_pendingSet h.tables.records).mpr ⟨r, hr, hp⟩), hr,
      Option.bind_some, takenRecord, if_neg hstate]
  · refine posted_settled h hr hp fun u hget => ?_
    rw [recompute_installs hget hstate, attention_postIf, hstaged]
    exact postTo_has ..

end Sys2Proof.Proofs
end

section
/-! PROOFS. What the framer's operations give, said once: the bits they take, a search, a check, a byte handed
on, a frame delivered and a frame received. -/

namespace Sys2Proof.Proofs

open Sys2Proof Sys2Proof.Machine

/-! ### Changes of one port -/

/-- A counted change that neither posts nor leaves ALIGNED is a change of the port alone. -/
theorem changeCounted_quiet {s : State} {n : PortNo} {q : Port} (hd : q.defects = s.ports[n].defects)
    (hm : q.maint = s.ports[n].maint) (ha : q.aligned = s.ports[n].aligned) :
    s.changeCounted n (q, false) = { s with ports := s.ports.set n q } :=
  changePort_quiet s n q (by rw [Port.sourceDefect, hd, Port.sourceDefect]) (by rw [hm]) (by rw [hm]) ha

/-- One that does not take the selected port out of ALIGNED leaves the monitor alone. -/
theorem changeCounted_unfollowed {s : State} {n : PortNo} {x : Port × Bool}
    (h : ¬ (s.ports[n].aligned = true ∧ x.1.aligned = false ∧ s.ref.selection = .port n)) :
    s.changeCounted n x = { s with ports := (s.changeCounted n x).ports,
                                   attention := (s.changeCounted n x).attention } := by
  have hframe := changeCounted_frame s n x
  rw [ref_changePort, if_neg h, ← ports_changeCounted] at hframe
  exact hframe

/-! ### The bits taken (R103) -/

/-- The bits taken at a place: the line's, or in an INWARD loop the port's own. -/
theorem received_eq {p : Port} {place : Place} {bits taken : List Bool} {offset : Nat}
    (hoffset : offset = (place - p.txPlace).val) (hline : p.maint.loop ≠ .inwardHost → taken = bits)
    (hown : p.maint.loop = .inwardHost → taken = ((p.txLast ++ p.txBits).drop
      (if offset + bits.length ≤ 288 then 288 + offset else offset)).take bits.length) :
    p.received place bits = taken := by
  by_cases hl : p.maint.loop = .inwardHost
  · rw [hown hl, hoffset, Port.received, if_pos (inward_iff.mpr hl)]
    rfl
  · rw [hline hl, received_line hl]

/-- A frame located on the line is seen with the same bits: the places count in an INWARD loop alone. -/
theorem seen_locate (p : Port) (lastStart moment : Nat) (located bits : List Bool) :
    (p.locate lastStart moment located).seen bits = p.seen bits := by
  unfold Port.locate
  split
  case isTrue h =>
    have hl : p.maint.loop ≠ .inwardHost := fun hl => by
      rw [inward_iff.mpr hl] at h
      cases h.2
    exact (seen_line (p := { p with txPlace := p.framer.place - bitsAfter lastStart moment }) hl bits).trans
      (seen_line hl bits).symm
  case isFalse => rfl

theorem locate_eq (p : Port) (lastStart moment : Nat) (bits : List Bool) :
    p.locate lastStart moment bits = { p with txPlace := (p.locate lastStart moment bits).txPlace } := by
  unfold Port.locate
  split <;> rfl

theorem locate_none {p : Port} {bits : List Bool}
    (h : p.maint.loop = .inwardHost ∨ p.framer.overhead ≠ [] ∨ bits = []) (lastStart moment : Nat) :
    p.locate lastStart moment bits = p := by
  refine if_neg fun ⟨hb, hi⟩ => ?_
  obtain ⟨-, hover, hbits⟩ := begins_iff.mp hb
  obtain h | h | h := h
  · rw [inward_iff.mpr h] at hi
    cases hi
  · exact h hover
  · exact hbits h

/-- The first bits of a frame on the line say where the system frame begins (log 10). -/
theorem locate_some {p : Port} {bits : List Bool} (ha : p.aligned = true)
    (h : ¬ (p.maint.loop = .inwardHost ∨ p.framer.overhead ≠ [] ∨ bits = [])) (lastStart moment : Nat) :
    (p.locate lastStart moment bits).txPlace = p.framer.place - bitsAfter lastStart moment := by
  simp only [not_or, not_not] at h
  obtain ⟨hl, hover, hbits⟩ := h
  rw [Port.locate, if_pos ⟨begins_iff.mpr ⟨ha, hover, hbits⟩, eq_false_of_ne_true (inward_iff.not.mpr hl)⟩]

/-! ### The search (R3) -/

theorem firstMatch_eq_some {l : List Bool} {k : Nat} (hk : (l.drop k).take 4 = alignmentBits)
    (hbefore : ∀ j < k, (l.drop j).take 4 ≠ alignmentBits) : firstMatch l = some k := by
  obtain ⟨i, hi⟩ := Option.isSome_iff_exists.mp (firstMatch_isSome hk)
  obtain ⟨hmatch, hnone⟩ := firstMatch_some hi
  obtain hlt | rfl | hlt := lt_trichotomy i k
  · exact absurd hmatch (hbefore i hlt)
  · exact hi
  · exact absurd hk (hnone k hlt)

theorem firstMatch_eq_none {l : List Bool} (h : ∀ k, (l.drop k).take 4 ≠ alignmentBits) :
    firstMatch l = none := by
  cases hm : firstMatch l with
  | none => rfl
  | some k => exact absurd (firstMatch_some hm).1 (h k)

section
variable {p : Port} {start : Place} {bits : List Bool}

theorem candidate_off (h : p.framer.state ≠ .search ∨ p.defects.off = true ∨ p.defects.sigLost = true) :
    p.candidate start bits = p := by
  refine if_neg fun ⟨hs, hf⟩ => ?_
  rw [Port.forced, Bool.or_eq_false_iff] at hf
  obtain h | h | h := h
  · exact h hs
  · rw [hf.1] at h
    cases h
  · rw [hf.2] at h
    cases h

variable (hs : p.framer.state = .search) (hoff : p.defects.off = false) (hlost : p.defects.sigLost = false)
include hs hoff hlost

theorem candidate_match {k : Nat}
    (hm : firstMatch (p.framer.recent ++ p.received (p.framer.next.getD start) bits) = some k) :
    p.candidate start bits = { p with framer := { p.framer with
      state := .verify, verified := 0, next := none, recent := [],
      place := p.framer.next.getD start - Fin.ofNat 288 p.framer.recent.length + Fin.ofNat 288 k } } := by
  rw [Port.candidate, if_pos ⟨hs, by rw [Port.forced, hoff, hlost]; rfl⟩]
  dsimp only
  rw [hm]

theorem candidate_none
    (hm : firstMatch (p.framer.recent ++ p.received (p.framer.next.getD start) bits) = none) :
    p.candidate start bits = { p with framer := { p.framer with
      next := some (p.framer.next.getD start +
        Fin.ofNat 288 (p.received (p.framer.next.getD start) bits).length),
      recent := lastThree (p.framer.recent ++ p.received (p.framer.next.getD start) bits) } } := by
  rw [Port.candidate, if_pos ⟨hs, by rw [Port.forced, hoff, hlost]; rfl⟩]
  dsimp only
  rw [hm]

end

/-! ### A check in VERIFY (R4) -/

theorem nibbleOk_iff {l : List Bool} : nibbleOk l = true ↔ l = [true, false, true, true] := beq_iff_eq

/-- The return to SEARCH from elsewhere than ALIGNED touches the framer alone. -/
theorem toSearch_unaligned {p : Port} (h : p.aligned = false) (next : Option Place) (recent : List Bool) :
    p.toSearch next recent = { p with framer := { p.framer with
      state := .search, verified := 0, next := next, recent := recent, overhead := [], erroredRun := 0 } } :=
  if_neg (ne_true_of_eq_false h)

theorem take_four_drop_one (l : List Bool) : (l.take 4).drop 1 = (l.drop 1).take 3 := List.drop_take ..

theorem not_short {l : List Bool} (h : l.take 4 = [true, false, true, true]) : ¬ l.length < 4 := by
  have hlength := congrArg List.length h
  rw [List.length_take] at hlength
  exact fun hlt => by simp only [List.length_cons, List.length_nil] at hlength; omega

section
variable {p : Port} {bits : List Bool} (hs : p.framer.state = .verify)
include hs

theorem not_aligned_in_verify : p.aligned = false := aligned_false_iff.mpr (by rw [hs]; decide)

theorem verify_short (h : (p.seen bits).length < 4) : p.verify bits =
    ({ p with framer := { p.framer with overhead := p.seen bits } }, false) := by
  rw [Port.verify, if_pos hs]
  exact if_pos h

theorem verify_missed (h : 4 ≤ (p.seen bits).length) (hno : (p.seen bits).take 4 ≠ [true, false, true, true]) :
    p.verify bits = ({ p with framer := { p.framer with
      state := .search, verified := 0, erroredRun := 0, overhead := [], next := some (p.framer.place + 4),
      recent := ((p.seen bits).drop 1).take 3 } }, false) := by
  have hmissed := toSearch_unaligned (not_aligned_in_verify hs) (some (p.framer.place + 4))
    (((p.seen bits).drop 1).take 3)
  rw [Port.verify, if_pos hs]
  dsimp only
  rw [if_neg (Nat.not_lt.mpr h), if_neg (nibbleOk_iff.not.mpr hno), Port.missed, take_four_drop_one, hmissed]

theorem verify_counted (hok : (p.seen bits).take 4 = [true, false, true, true]) (hv : p.framer.verified < 2) :
    p.verify bits = ({ p with framer := { p.framer with
      verified := p.framer.verified + 1, overhead := [] } }, false) := by
  rw [Port.verify, if_pos hs]
  dsimp only
  rw [if_neg (not_short hok), if_pos (nibbleOk_iff.mpr hok), if_pos hv]

theorem verify_third (hok : (p.seen bits).take 4 = [true, false, true, true]) (hv : 2 ≤ p.framer.verified) :
    p.verify bits = p.toAligned.deliver (p.seen bits) := by
  rw [Port.verify, if_pos hs]
  dsimp only
  rw [if_neg (not_short hok), if_pos (nibbleOk_iff.mpr hok), if_neg (Nat.not_lt.mpr hv)]

end

/-! ### A symbol counted (R146 to R148, R154, R155) -/

/-- What a recognized code does to the maintenance unit. -/
def acted (cfg : PortConfig) (m : Maint) : Code → Maint
  | .loopUp =>
    if cfg.codeResponse = true ∧ m.loop = .off then
      { m with loop := .returnCode, loopTimer := cfg.loopTimeout.toNat * 80000, loopMark := .plain }
    else m
  | .loopDown =>
    if m.loop = .returnCode then { m with loop := .off, loopTimer := 0, loopMark := .plain } else m

theorem actOnCode_eq (p : Port) (c : Code) : p.actOnCode c = { p with maint := acted p.config p.maint c } := by
  cases c with
  | loopUp =>
    simp only [Port.actOnCode, acted]
    split <;> rfl
  | loopDown =>
    simp only [Port.actOnCode, acted]
    split
    case isTrue h => simp [Port.setLoop, h]
    case isFalse => rfl

/-- The maintenance unit after one more symbol, a recognition and what it does with it. -/
def counted (cfg : PortConfig) (m : Maint) (x : Sym) : Maint :=
  match (judged m x).recognizes with
  | some c => acted cfg { judged m x with recognized := true, lastCode := some c } c
  | none => judged m x

theorem counted_some {cfg : PortConfig} {m : Maint} {x : Sym} {c : Code}
    (h : (judged m x).recognizes = some c) :
    counted cfg m x = acted cfg { judged m x with recognized := true, lastCode := some c } c := by
  rw [counted, h]

theorem counted_none {cfg : PortConfig} {m : Maint} {x : Sym} (h : (judged m x).recognizes = none) :
    counted cfg m x = judged m x := by
  rw [counted, h]

theorem countSymbol_eq (p : Port) (y : Nibble) : p.countSymbol y =
    ({ p with maint := counted p.config p.maint (symOf y) }, (judged p.maint (symOf y)).recognizes.isSome) := by
  cases h : (judged p.maint (symOf y)).recognizes with
  | some c => rw [countSymbol_some h, counted_some h, actOnCode_eq, Option.isSome_some]
  | none => rw [countSymbol_none h, counted_none h, Option.isSome_none]

/-! ### An overhead byte handed on, and a frame delivered (R6, R31, R33, R146) -/

/-- The maintenance unit after the bits seen of an overhead byte: with the eighth its symbol is counted. -/
def handed (cfg : PortConfig) (m : Maint) (seen : List Bool) : Maint :=
  if seen.length < 8 then m else counted cfg m (symOf (bitsNibble (seen.drop 4)))

theorem handed_short {cfg : PortConfig} {m : Maint} {seen : List Bool} (h : seen.length < 8) :
    handed cfg m seen = m := if_pos h

theorem handed_whole {cfg : PortConfig} {m : Maint} {seen : List Bool} (h : 8 ≤ seen.length) :
    handed cfg m seen = counted cfg m (symOf (bitsNibble (seen.drop 4))) := if_neg (Nat.not_lt.mpr h)

theorem handOn_port (p : Port) (seen : List Bool) : (p.handOn seen).1 = { p with
    framer := { p.framer with overhead := if seen.length < 8 then seen else [] },
    slip := p.slip.header seen, maint := handed p.config p.maint seen } := by
  by_cases h : seen.length < 8
  · rw [Port.handOn, if_pos h, if_pos h, handed_short h]
  · rw [Port.handOn, if_neg h, if_neg h, countSymbol_eq, handed_whole (Nat.not_lt.mp h)]

theorem handOn_code {p : Port} {seen : List Bool} (h : 8 ≤ seen.length) : (p.handOn seen).2 =
    (judged p.maint (symOf (bitsNibble (seen.drop 4)))).recognizes.isSome := by
  rw [Port.handOn, if_neg (Nat.not_lt.mpr h), countSymbol_eq]

theorem deliver_port (p : Port) (seen : List Bool) : (p.deliver seen).1 = { p with
    framer := { p.framer with overhead := if seen.length < 8 then seen else [] },
    slip := p.slip.begin.header seen, maint := handed p.config p.maint seen,
    rxFirst := some (p.ownIndex p.framer.place seen.length) } :=
  handOn_port { p with slip := p.slip.begin, rxFirst := some (p.ownIndex p.framer.place seen.length) } seen

theorem deliver_code {p : Port} {seen : List Bool} (h : 8 ≤ seen.length) : (p.deliver seen).2 =
    (judged p.maint (symOf (bitsNibble (seen.drop 4)))).recognizes.isSome :=
  handOn_code (p := { p with slip := p.slip.begin, rxFirst := some (p.ownIndex p.framer.place seen.length) }) h

theorem header_begun {b : SlipBuffer} (h : b.waiting.length < 2) (seen : List Bool) :
    b.begin.header seen = { b with writing := some [], slot := seen } := by
  rw [SlipBuffer.begin, if_pos h]
  rfl

/-- A frame that finds two waiting is dropped whole (R33). -/
theorem header_dropped {b : SlipBuffer} (h : 2 ≤ b.waiting.length) (hw : b.writing = none) (seen : List Bool) :
    b.begin.header seen = b.countSlip := by
  have hstands : b.countSlip.writing = none := hw
  rw [SlipBuffer.begin, if_neg (Nat.not_lt.mpr h), SlipBuffer.header, hstands]

theorem header_eq (b : SlipBuffer) (seen : List Bool) :
    b.header seen = { b with slot := if b.writing = some [] then seen else b.slot } := by
  unfold SlipBuffer.header
  split
  case h_1 h => rw [if_pos h]
  all_goals
    rename_i h
    rw [if_neg (by rw [h]; simp)]

/-! ### A frame received in ALIGNED (R5, R7) -/

/-- A framer that has counted an errored nibble, or none (R5, R7). -/
def withErrored (p : Port) (run count : Nat) : Port :=
  { p with framer := { p.framer with erroredRun := run, erroredCount := count } }

section
variable {p : Port} {bits : List Bool} (ha : p.aligned = true)
include ha

theorem receive_late (h : 4 ≤ p.framer.overhead.length) : p.receive bits = p.handOn (p.seen bits) := by
  rw [Port.receive, if_pos ha]
  exact if_pos h

variable (h : p.framer.overhead.length < 4)
include h

theorem receive_short (hshort : (p.seen bits).length < 4) : p.receive bits =
    ({ p with framer := { p.framer with overhead := p.seen bits } }, false) := by
  rw [Port.receive, if_pos ha]
  dsimp only
  rw [if_neg (Nat.not_le.mpr h), if_pos hshort]

theorem receive_correct (hok : (p.seen bits).take 4 = [true, false, true, true]) :
    p.receive bits = (withErrored p 0 p.framer.erroredCount).deliver (p.seen bits) := by
  rw [Port.receive, if_pos ha]
  dsimp only
  rw [if_neg (Nat.not_le.mpr h), if_neg (not_short hok), if_pos (nibbleOk_iff.mpr hok), withErrored]

variable (hlen : 4 ≤ (p.seen bits).length) (hno : (p.seen bits).take 4 ≠ [true, false, true, true])
include hlen hno

theorem receive_errored (hrun : p.framer.erroredRun < 3) :
    p.receive bits = (withErrored p (p.framer.erroredRun + 1)
      (satSucc 65535 p.framer.erroredCount)).deliver (p.seen bits) := by
  rw [Port.receive, if_pos ha]
  dsimp only
  rw [if_neg (Nat.not_le.mpr h), if_neg (Nat.not_lt.mpr hlen), if_neg (nibbleOk_iff.not.mpr hno),
    if_neg (by omega), withErrored]

theorem receive_lost (hrun : 3 ≤ p.framer.erroredRun) :
    p.receive bits = ((withErrored p (p.framer.erroredRun + 1)
      (satSucc 65535 p.framer.erroredCount)).missed ((p.seen bits).take 4), false) := by
  rw [Port.receive, if_pos ha]
  dsimp only
  rw [if_neg (Nat.not_le.mpr h), if_neg (Nat.not_lt.mpr hlen), if_neg (nibbleOk_iff.not.mpr hno),
    if_pos (by omega), withErrored]

end

end Sys2Proof.Proofs
end

section
/-! PROOFS. The framer: the search and the checks (O6), the third match (O7) and the nibbles of ALIGNED
(O9). -/

namespace Sys2Proof.Proofs

open Sys2Proof Sys2Proof.Machine

/-! ### SEARCH and VERIFY -/

/-- A search's candidate, and a search without one, change the framer alone. -/
theorem exec_candidateFound_quiet {s : State} {n : PortNo} {start : Place} {bits : List Bool} {f : Framer}
    (hc : s.ports[n].candidate start bits = { s.ports[n] with framer := f })
    (hs : s.ports[n].framer.state = .search) (hf : f.state ≠ .aligned) :
    exec (.candidateFound n ⟨start, bits⟩) s =
      .next { s with ports := s.ports.set n { s.ports[n] with framer := f } } := by
  have hquiet := changePort_quiet s n { s.ports[n] with framer := f } rfl rfl rfl
    ((aligned_false_iff.mpr hf).trans (aligned_false_iff.mpr (by rw [hs]; decide)).symm)
  rw [← hquiet, ← hc]
  rfl

/-- A check that stays out of ALIGNED changes the framer alone. -/
theorem exec_verifyCheck_quiet {s : State} {n : PortNo} {nibble symbol : List Bool} {f : Framer}
    (hc : s.ports[n].verify (nibble ++ symbol) = ({ s.ports[n] with framer := f }, false))
    (hs : s.ports[n].framer.state = .verify) (hf : f.state ≠ .aligned) :
    exec (.verifyCheck n nibble symbol) s =
      .next { s with ports := s.ports.set n { s.ports[n] with framer := f } } := by
  rw [exec_verifyCheck, hc, changeCounted_quiet (q := { s.ports[n] with framer := f }) rfl rfl
    ((aligned_false_iff.mpr hf).trans (not_aligned_in_verify hs).symm)]

/-- Settles O6: a check with fewer than four bits, a miss and a match; a search with and without one. -/
theorem candidateIsVerified : Obligations.CandidateIsVerified := by
  refine ⟨fun s n nibble symbol seen hseen hs => ⟨fun h => ?_, fun h hno => ?_, fun hok hv => ?_⟩,
    fun s n start first offset bits taken window hfirst hoffset hline hown hwindow =>
      ⟨fun hs hoff hlost => ⟨fun k hk hbefore => ?_, fun hnone => ?_⟩, fun h => ?_⟩⟩
  · subst hseen
    exact exec_verifyCheck_quiet (verify_short hs h) hs (hs.trans_ne (by decide))
  · subst hseen
    exact exec_verifyCheck_quiet (verify_missed hs h hno) hs (by simp)
  · subst hseen
    exact exec_verifyCheck_quiet (verify_counted hs hok hv) hs (hs.trans_ne (by decide))
  all_goals
    have htaken : s.ports[n].received (s.ports[n].framer.next.getD start) bits = taken :=
      received_eq (hfirst ▸ hoffset) hline hown
  · have hm : firstMatch (s.ports[n].framer.recent ++
        s.ports[n].received (s.ports[n].framer.next.getD start) bits) = some k := by
      rw [htaken, ← hwindow]
      exact firstMatch_eq_some hk hbefore
    subst hfirst
    exact exec_candidateFound_quiet (candidate_match hs hoff hlost hm) hs (by simp)
  · have hm : firstMatch (s.ports[n].framer.recent ++
        s.ports[n].received (s.ports[n].framer.next.getD start) bits) = none := by
      rw [htaken, ← hwindow]
      exact firstMatch_eq_none hnone
    have hc := candidate_none hs hoff hlost hm
    rw [htaken, ← hwindow, ← hfirst] at hc
    exact exec_candidateFound_quiet hc hs (hs.trans_ne (by decide))
  · have hc : exec (.candidateFound n ⟨start, bits⟩) s =
        .next (s.changePort n (s.ports[n].candidate start bits)) := rfl
    rw [hc, candidate_off h, changePort_self]

/-! ### The third match -/

/-- A nibble's bits, most significant first, spell it. -/
theorem bitsNibble_bits (y : Nibble) :
    bitsNibble [y.getLsbD 3, y.getLsbD 2, y.getLsbD 1, y.getLsbD 0] = y := by
  revert y
  decide

/-- The symbol of an overhead byte seen whole. -/
theorem symbol_seen {seen : List Bool} {y : Nibble} (hlen : seen.length = 8)
    (hy : ∀ i < 4, seen[4 + i]? = some (y.getLsbD (3 - i))) : bitsNibble (seen.drop 4) = y := by
  have h0 := hy 0 (by decide)
  have h1 := hy 1 (by decide)
  have h2 := hy 2 (by decide)
  have h3 := hy 3 (by decide)
  match seen, hlen with
  | [b7, b6, b5, b4, b3, b2, b1, b0], _ =>
    simp only [Nat.reduceAdd, Nat.reduceSub, List.getElem?_cons_succ, List.getElem?_cons_zero,
      Option.some.injEq] at h0 h1 h2 h3
    subst h0 h1 h2 h3
    exact bitsNibble_bits y

/-- The first symbol of a run is neither a code nor a far alarm yet (R146 to R148). -/
theorem counted_first {cfg : PortConfig} {m : Maint} (hrun : m.runSym = none) (hfar : m.farAlarm = false)
    (x : Sym) : counted cfg m x = { m with runSym := some x, runLength := 1, recognized := false } := by
  have hj : judged m x = { m with runSym := some x, runLength := 1, recognized := false } := by
    simp [judged, Maint.countRun, Maint.judgeFar, hrun, hfar]
  rw [counted_none (by rw [hj]; rfl), hj]

/-- Settles O7, by the frame that the third match delivers. -/
theorem thirdMatchEntersAligned : Obligations.ThirdMatchEntersAligned := by
  intro s n nibble symbol seen offset hseen hs hok hv hoffset
  have hverify := verify_third hs (hseen ▸ hok) hv
  rw [← hseen] at hverify
  have hport := deliver_port s.ports[n].toAligned seen
  rw [header_begun (b := s.ports[n].toAligned.slip) (Nat.lt_succ_self 1)] at hport
  refine ⟨s.changeCounted n (s.ports[n].toAligned.deliver seen), by rw [exec_verifyCheck, hverify], ?_⟩
  have hun : ¬ (s.ports[n].aligned = true ∧ (s.ports[n].toAligned.deliver seen).1.aligned = false ∧
      s.ref.selection = .port n) := by
    rw [not_aligned_in_verify hs]
    exact fun h => Bool.false_ne_true h.1
  have hframe := changeCounted_unfollowed hun
  have hother : ∀ m : PortNo, m ≠ n →
      (s.changeCounted n (s.ports[n].toAligned.deliver seen)).ports[m] = s.ports[m] :=
    fun m hm => port_changeCounted_ne s _ hm
  have hsame := port_changeCounted_same s n (s.ports[n].toAligned.deliver seen)
  rw [hport] at hsame
  rw [hsame]
  refine ⟨rfl, rfl, rfl, fun hlt => handed_short hlt, fun y hlen hy hm => ?_, ?_, hother, hframe⟩
  · obtain ⟨hrun, -, hfar⟩ := hm.zeroed (not_aligned_in_verify hs)
    refine (handed_whole hlen.ge).trans ?_
    rw [symbol_seen hlen hy]
    exact counted_first hrun hfar _
  · rw [hoffset]
    rfl

/-! ### The nibbles of ALIGNED -/

/-- What no frame received changes: the configuration, LOS_n and the transmit frame. -/
theorem receive_keeps {p : Port} (ha : p.aligned = true) (bits : List Bool) :
    (p.receive bits).1 = { p with
      framer := (p.receive bits).1.framer, defects := (p.receive bits).1.defects,
      slip := (p.receive bits).1.slip, maint := (p.receive bits).1.maint,
      rxFirst := (p.receive bits).1.rxFirst } := by
  by_cases hlate : 4 ≤ p.framer.overhead.length
  · rw [receive_late ha hlate, handOn_port]
  have h := Nat.lt_of_not_le hlate
  by_cases hshort : (p.seen bits).length < 4
  · rw [receive_short ha h hshort]
  by_cases hok : (p.seen bits).take 4 = [true, false, true, true]
  · rw [receive_correct ha h hok, deliver_port]
    rfl
  by_cases hrun : p.framer.erroredRun < 3
  · rw [receive_errored ha h (Nat.le_of_not_lt hshort) hok hrun, deliver_port]
    rfl
  · rw [receive_lost ha h (Nat.le_of_not_lt hshort) hok (Nat.le_of_not_lt hrun), Port.missed, toSearch_eq]
    rfl

/-- The fourth errored nibble in a row (R5, R11, R12, R35, R149). -/
theorem port_receive_lost {p : Port} {bits : List Bool} (ha : p.aligned = true)
    (h : p.framer.overhead.length < 4) (hlen : 4 ≤ (p.seen bits).length)
    (hno : (p.seen bits).take 4 ≠ [true, false, true, true]) (hrun : 3 ≤ p.framer.erroredRun) :
    (p.receive bits).1 = { p with
      framer := { p.framer with
        state := .search, verified := 0, erroredRun := 0, overhead := [],
        next := some (p.framer.place + 4), recent := ((p.seen bits).drop 1).take 3,
        period := ⟨some (p.framer.place + 4), 0, true⟩,
        erroredCount := satSucc 65535 p.framer.erroredCount },
      defects := { p.defects with unframed := p.defects.unframed || p.config.enable },
      slip := { p.slip with writing := none, slot := [] },
      maint := { p.maint with runSym := none, runLength := 0, recognized := false, absence := 0,
                              farAlarm := false } } := by
  have hleft := toSearch_eq (withErrored p (p.framer.erroredRun + 1) (satSucc 65535 p.framer.erroredCount))
    (some (p.framer.place + 4)) (((p.seen bits).drop 1).take 3)
  have ha' : (withErrored p (p.framer.erroredRun + 1)
      (satSucc 65535 p.framer.erroredCount)).aligned = true := ha
  rw [if_pos ha', if_pos ha', if_pos ha', ha', Bool.true_and] at hleft
  rw [receive_lost ha h hlen hno hrun, Port.missed, take_four_drop_one]
  exact hleft

/-- Settles O9: the five cases of a frame received, on the port as its frame is located. -/
theorem alignedNibbleIsJudged : Obligations.AlignedNibbleIsJudged := by
  intro s n moment nibble symbol seen rest hseen ha hsel hrest
  have hq := locate_eq s.ports[n] s.ref.lastStart moment (nibble ++ symbol)
  have hqseen := seen_locate s.ports[n] s.ref.lastStart moment (nibble ++ symbol) (nibble ++ symbol)
  have hqplace : s.ports[n].maint.loop = .inwardHost ∨ s.ports[n].framer.overhead ≠ [] ∨
      nibble ++ symbol = [] → (s.ports[n].locate s.ref.lastStart moment (nibble ++ symbol)).txPlace =
        s.ports[n].txPlace := fun h => congrArg Port.txPlace (locate_none h _ _)
  refine ⟨s.changeCounted n ((s.ports[n].locate s.ref.lastStart moment (nibble ++ symbol)).receive
    (nibble ++ symbol)), by rw [exec_alignedFrameReceived, frameMark_other hsel], ?_⟩
  rw [← hseen] at hqseen
  generalize s.ports[n].locate s.ref.lastStart moment (nibble ++ symbol) = q at hq hqseen hqplace ⊢
  have hframe := changeCounted_unfollowed (s := s) (n := n) (x := q.receive (nibble ++ symbol))
    fun h => hsel h.2.2
  have hother : ∀ m : PortNo, m ≠ n → (s.changeCounted n (q.receive (nibble ++ symbol))).ports[m] =
    s.ports[m] := fun m hm => port_changeCounted_ne s _ hm
  rw [port_changeCounted_same]
  generalize nibble ++ symbol = bits at *
  generalize hp : s.ports[n] = p at ha hseen hq hqplace ⊢
  obtain ⟨z, rfl⟩ : ∃ z, q = { p with txPlace := z } := ⟨_, hq⟩
  have hqa : ({ p with txPlace := z } : Port).aligned = true := ha
  have hkeeps := receive_keeps hqa bits
  refine ⟨fun h => ?_, fun h hshort => ?_, fun h hok => ?_, fun h hlen hno hrun => ?_,
    fun h hlen hno hrun => ?_, ?_, ?_, ?_, ?_, ?_, fun h => ?_, hother, hframe⟩
  · rw [receive_late hqa h, handOn_port, hqseen, hrest]
    exact ⟨rfl, rfl⟩
  · rw [receive_short hqa h (hqseen ▸ hshort), hqseen]
  · rw [receive_correct hqa h (hqseen ▸ hok), deliver_port, hqseen, hrest]
    exact ⟨rfl, rfl⟩
  · rw [receive_errored hqa h (hqseen ▸ hlen) (hqseen ▸ hno) hrun, deliver_port, hqseen, hrest]
    exact ⟨rfl, rfl⟩
  · rw [port_receive_lost hqa h (hqseen ▸ hlen) (hqseen ▸ hno) hrun, hqseen]
    exact ⟨rfl, rfl, rfl, rfl, rfl⟩
  · rw [hkeeps]
  · rw [hkeeps]
  · rw [hkeeps]
  · rw [hkeeps]
  · rw [hkeeps]
  · rw [hkeeps]
    exact hqplace h

end Sys2Proof.Proofs
end

section
/-! PROOFS. What is posted, said once; the stream fed back to an INWARD port (O8); and frames handed on, with
their symbols and codes (O10 to O12). -/

namespace Sys2Proof.Proofs

open Sys2Proof Sys2Proof.Machine

/-! ### Postings -/

/-- A subject has an entry with a kind in it. -/
def Posted (l : List Entry) (x : Subject) (c : Change) : Prop :=
  ∃ e ∈ l, e.subject = x ∧ e.summary.has c = true

theorem posted_postTo {l : List Entry} {x y : Subject} {c d : Change} :
    Posted (postTo l x c) y d ↔ Posted l y d ∨ x = y ∧ c = d := by
  constructor
  · rintro ⟨e, he, hy, hd⟩
    by_cases h : x = y ∧ c = d
    · exact .inr h
    · exact .inl (postTo_new he hy hd (not_and_or.mp h))
  · rintro (h | ⟨rfl, rfl⟩)
    · exact postTo_keeps h
    · exact postTo_has l x c

theorem posted_postIf {s : State} {b : Bool} {x y : Subject} {c d : Change} :
    Posted (s.postIf b x c).attention y d ↔ Posted s.attention y d ∨ b = true ∧ x = y ∧ c = d := by
  rw [attention_postIf]
  cases b with
  | false => simp
  | true => simp [posted_postTo]

/-- What has changed from a port to another, of what a change posts. -/
def Moved (p q : Port) (d : Change) : Prop :=
  d = .portDefect ∧ p.sourceDefect ≠ q.sourceDefect ∨
    d = .farAlarm ∧ p.maint.farAlarm ≠ q.maint.farAlarm ∨ d = .loop ∧ p.maint.loop ≠ q.maint.loop

/-- A port's change posts what changed, on that port alone (R14, R148, R150). -/
theorem posted_changePort {s : State} {n : PortNo} {q : Port} {y : Subject} {d : Change} :
    Posted (s.changePort n q).attention y d ↔
      Posted s.attention y d ∨ .port n = y ∧ Moved s.ports[n] q d := by
  rw [attention_changePort, posted_postIf, posted_postIf, posted_postIf]
  simp only [bne_iff_ne]
  constructor
  · rintro (((h | ⟨h, hy, rfl⟩) | ⟨h, hy, rfl⟩) | ⟨h, hy, rfl⟩)
    · exact .inl h
    · exact .inr ⟨hy, .inl ⟨rfl, h⟩⟩
    · exact .inr ⟨hy, .inr (.inl ⟨rfl, h⟩)⟩
    · exact .inr ⟨hy, .inr (.inr ⟨rfl, h⟩)⟩
  · rintro (h | ⟨hy, ⟨rfl, h⟩ | ⟨rfl, h⟩ | ⟨rfl, h⟩⟩)
    · exact .inl (.inl (.inl h))
    · exact .inl (.inl (.inr ⟨h, hy, rfl⟩))
    · exact .inl (.inr ⟨h, hy, rfl⟩)
    · exact .inr ⟨h, hy, rfl⟩

/-- A counted change posts CODE besides, where a code was recognized (R147). -/
theorem posted_changeCounted {s : State} {n : PortNo} {x : Port × Bool} {y : Subject} {d : Change} :
    Posted (s.changeCounted n x).attention y d ↔
      Posted (s.changePort n x.1).attention y d ∨ x.2 = true ∧ .port n = y ∧ .code = d := posted_postIf

/-! ### The port's own stream (R1, R16, R103) -/

/-- The i-th bit of slot k of some bytes. -/
theorem getElem_slotsBits {l : List Byte} {y : Byte} {k i : Nat} (hi : i < 8) (hy : l[k]? = some y) :
    (slotsBits l)[8 * k + i]? = some (y.getLsbD (7 - i)) := by
  obtain ⟨hk, rfl⟩ := List.getElem?_eq_some_iff.mp hy
  have hslot := slotBits_slotsBits hk
  calc (slotsBits l)[8 * k + i]?
    _ = (((slotsBits l).drop (8 * k)).take 8)[i]? := by
      rw [List.getElem?_take_of_lt hi, List.getElem?_drop]
    _ = (byteBits l[k])[i]? := by rw [hslot]
    _ = some (l[k].getLsbD (7 - i)) := by
      rw [byteBits, List.getElem?_map, List.getElem?_range hi, Option.map_some, BitVec.getMsbD_eq_getLsbD]
      simp [hi]

theorem txBits_some {p : Port} {b : List Byte} (h : p.txPayload = some b) :
    p.txBits = slotsBits (((0xB : Nibble) ++ p.txSymbol) :: b) := by
  rw [Port.txBits, Port.txFrame, h]
  rfl

theorem txBits_none {p : Port} (h : p.txPayload = none) : p.txBits = List.replicate 288 true := by
  rw [Port.txBits, Port.txFrame, h]
  rfl

theorem byteBits_overhead (y : Nibble) : byteBits ((0xB : Nibble) ++ y) =
    [true, false, true, true, y.getLsbD 3, y.getLsbD 2, y.getLsbD 1, y.getLsbD 0] := by
  revert y
  decide

/-- At its transmit frame's place an INWARD port sees its own overhead byte. -/
theorem seen_ownOverhead {p : Port} {b : List Byte} {bits : List Bool} (hl : p.maint.loop = .inwardHost)
    (hplace : p.framer.place = p.txPlace) (hover : p.framer.overhead = []) (hlast : p.txLast.length = 288)
    (hb : p.txPayload = some b) (hbits : 8 ≤ bits.length) :
    p.seen bits = byteBits ((0xB : Nibble) ++ p.txSymbol) := by
  have htake : (bits.take 8).length = 8 := by rw [List.length_take]; omega
  have hoffset : p.offset p.framer.place = 0 := by rw [Port.offset, hplace, sub_self]; rfl
  have hindex : p.ownIndex p.framer.place 8 = p.txLast.length := by
    rw [Port.ownIndex, hoffset, if_pos (by decide), hlast]
  rw [seen_inward hl hover, htake, Port.ownBits, hindex, Port.ownStream, List.drop_left, txBits_some hb,
    slotsBits_cons]
  exact List.take_left' (length_byteBits _)

/-- Settles O8: the bits sent, and the bits seen in either stream. -/
theorem fedBackFrameIsSeen : Obligations.FedBackFrameIsSeen := by
  refine ⟨fun p b y k i hb hi hy => ?_, fun p h => txBits_none h, fun p bits wanted hwanted =>
    ⟨fun hl => ?_, fun offset hl hoffset => ?_, fun b hl hplace hover hlast hb hbits => ?_⟩⟩
  · rw [txBits_some hb]
    exact getElem_slotsBits hi hy
  · rw [seen_line hl, hwanted]
  · rw [Port.seen, ← hwanted]
    exact congrArg (p.framer.overhead ++ ·) (received_eq hoffset (fun h => absurd hl h) fun _ => rfl)
  · rw [seen_ownOverhead hl hplace hover hlast hb hbits, byteBits_overhead]

/-! ### A symbol counted -/

theorem acted_eq (cfg : PortConfig) (m : Maint) (c : Code) : acted cfg m c = { m with
    loop := (acted cfg m c).loop, loopTimer := (acted cfg m c).loopTimer,
    loopMark := (acted cfg m c).loopMark } := by
  cases c <;> simp only [acted] <;> split <;> rfl

/-- A symbol counted moves the run and the far alarm as it is judged, and never the burst. -/
theorem counted_eq (cfg : PortConfig) (m : Maint) (x : Sym) : counted cfg m x = { counted cfg m x with
    runSym := some x, runLength := if m.runSym = some x then satSucc 64 m.runLength else 1,
    absence := (judged m x).absence, farAlarm := (judged m x).farAlarm,
    burstCode := m.burstCode, burstLeft := m.burstLeft, burstRunning := m.burstRunning } := by
  cases h : (judged m x).recognizes with
  | some c =>
    rw [counted_some h, acted_eq, judged_eq]
  | none =>
    rw [counted_none h]
    conv => lhs; rw [judged_eq]
    conv => rhs; rw [judged_eq]

/-- The far alarm and its absence after a symbol (R148). -/
theorem judged_far (m : Maint) (x : Sym) :
    (m.farAlarm = false → (judged m x).farAlarm = decide (x = .farAlarm ∧ (judged m x).runLength = 16) ∧
      (judged m x).absence = if (judged m x).farAlarm then 0 else m.absence) ∧
    (m.farAlarm = true → (judged m x).farAlarm = decide (x = .farAlarm ∨ m.absence + 1 < 16) ∧
      (judged m x).absence = if x = .farAlarm then 0 else if m.absence + 1 < 16 then m.absence + 1 else 0) := by
  have hrun : (m.countRun x).farAlarm = m.farAlarm ∧ (m.countRun x).absence = m.absence := by
    rw [countRun_eq]
    exact ⟨rfl, rfl⟩
  unfold judged
  generalize m.countRun x = c at hrun
  obtain ⟨hfar, habsence⟩ := hrun
  rw [← hfar, ← habsence]
  unfold Maint.judgeFar
  constructor <;> intro h <;> simp only [h, Config.farRun]
  · by_cases hx : x = .farAlarm ∧ c.runLength = 16
    · simp [hx]
    · simp [hx, h]
  · by_cases hx : x = .farAlarm
    · simp [hx]
    · by_cases hn : c.absence + 1 < 16 <;> simp [hx, hn]

/-- A symbol that does not complete a code's run for the first time is judged, and no more. -/
theorem counted_unrecognized {cfg : PortConfig} {m : Maint} {x : Sym}
    (h : (counted cfg m x).runLength ≠ 64 ∨ x = .quiet ∨ x = .farAlarm ∨ m.recognized = true) :
    counted cfg m x = judged m x := by
  cases hr : (judged m x).recognizes with
  | none => exact counted_none hr
  | some c =>
    obtain ⟨hrun, hrec, hsym⟩ := recognizes_eq_some.mp hr
    have hlen : (counted cfg m x).runLength = (judged m x).runLength := by
      rw [counted_eq, judged_eq]
    rw [judged_eq] at hrun hrec hsym
    dsimp only at hrun hrec hsym
    obtain h | rfl | rfl | h := h
    · rw [hlen, judged_eq] at h
      exact absurd hrun h
    · cases c <;> cases hsym
    · cases c <;> cases hsym
    · -- recognized already: the run would have begun afresh, one frame long
      rw [h, Bool.true_and, decide_eq_false_iff_not] at hrec
      rw [if_neg hrec] at hrun
      cases hrun

/-! ### A frame handed on -/

/-- A frame that is not the fourth errored one in a row is handed on, delivered first where its nibble has
just been examined (R5, R31). -/
theorem receive_handed {p : Port} {bits : List Bool} (ha : p.aligned = true) (hlen : 4 ≤ (p.seen bits).length)
    (h : 4 ≤ p.framer.overhead.length ∨ (p.seen bits).take 4 = [true, false, true, true] ∨
      p.framer.erroredRun < 3) :
    4 ≤ p.framer.overhead.length ∧ p.receive bits = p.handOn (p.seen bits) ∨
      p.framer.overhead.length < 4 ∧
        ∃ run count, p.receive bits = (withErrored p run count).deliver (p.seen bits) := by
  by_cases hlate : 4 ≤ p.framer.overhead.length
  · exact .inl ⟨hlate, receive_late ha hlate⟩
  have hin := Nat.lt_of_not_le hlate
  refine .inr ⟨hin, ?_⟩
  by_cases hok : (p.seen bits).take 4 = [true, false, true, true]
  · exact ⟨_, _, receive_correct ha hin hok⟩
  · obtain h | h | h := h
    · exact absurd h hlate
    · exact absurd h hok
    · exact ⟨_, _, receive_errored ha hin hlen hok h⟩

section
variable {p : Port} {bits : List Bool} (ha : p.aligned = true) (hlen : 4 ≤ (p.seen bits).length)
  (h : 4 ≤ p.framer.overhead.length ∨ (p.seen bits).take 4 = [true, false, true, true] ∨
    p.framer.erroredRun < 3)
include ha hlen h

/-- The port after a frame handed on. -/
theorem port_receive_handed : (p.receive bits).1 = { p with
    framer := (p.receive bits).1.framer,
    slip := if 4 ≤ p.framer.overhead.length then p.slip.header (p.seen bits)
      else p.slip.begin.header (p.seen bits),
    maint := handed p.config p.maint (p.seen bits),
    rxFirst := if 4 ≤ p.framer.overhead.length then p.rxFirst
      else some (p.ownIndex p.framer.place (p.seen bits).length) } := by
  obtain ⟨hlate, heq⟩ | ⟨hin, run, count, heq⟩ := receive_handed ha hlen h
  · rw [heq, handOn_port, if_pos hlate, if_pos hlate]
  · rw [heq, deliver_port, if_neg (Nat.not_le.mpr hin), if_neg (Nat.not_le.mpr hin)]
    rfl

theorem code_receive_handed (hwhole : 8 ≤ (p.seen bits).length) : (p.receive bits).2 =
    (judged p.maint (symOf (bitsNibble ((p.seen bits).drop 4)))).recognizes.isSome := by
  obtain ⟨-, heq⟩ | ⟨-, run, count, heq⟩ := receive_handed ha hlen h
  · rw [heq, handOn_code hwhole]
  · rw [heq, deliver_code hwhole]
    rfl

end

/-- A frame that is handed on, received by a port that is not the selected one, as the obligations O10 to O12
speak of it: the port it is located on, and the postings of its change. -/
theorem exec_frame_handed {s : State} {n : PortNo} {moment : Nat} {nibble symbol seen : List Bool}
    (hseen : seen = s.ports[n].seen (nibble ++ symbol)) (ha : s.ports[n].aligned = true)
    (hsel : s.ref.selection ≠ .port n) (hlen : 4 ≤ seen.length)
    (h : 4 ≤ s.ports[n].framer.overhead.length ∨ seen.take 4 = [true, false, true, true] ∨
      s.ports[n].framer.erroredRun < 3) :
    ∃ (q q' : Port) (code : Bool),
      q = s.ports[n].locate s.ref.lastStart moment (nibble ++ symbol) ∧
      q' = { q with
        framer := q'.framer,
        slip := if 4 ≤ q.framer.overhead.length then q.slip.header seen else q.slip.begin.header seen,
        maint := handed q.config q.maint seen,
        rxFirst := if 4 ≤ q.framer.overhead.length then q.rxFirst
          else some (q.ownIndex q.framer.place seen.length) } ∧
      (8 ≤ seen.length → code = (judged q.maint (symOf (bitsNibble (seen.drop 4)))).recognizes.isSome) ∧
      exec (.alignedFrameReceived n moment nibble symbol) s = .next (s.changeCounted n (q', code)) := by
  have hq := locate_eq s.ports[n] s.ref.lastStart moment (nibble ++ symbol)
  have hqseen := seen_locate s.ports[n] s.ref.lastStart moment (nibble ++ symbol) (nibble ++ symbol)
  have hexec := exec_alignedFrameReceived n moment nibble symbol s
  rw [frameMark_other hsel] at hexec
  rw [← hseen] at hqseen
  generalize s.ports[n].locate s.ref.lastStart moment (nibble ++ symbol) = q at *
  have hqa : q.aligned = true := by rw [hq]; exact ha
  have hqh : 4 ≤ q.framer.overhead.length ∨ (q.seen (nibble ++ symbol)).take 4 = [true, false, true, true] ∨
      q.framer.erroredRun < 3 := by rw [hqseen, hq]; exact h
  have hport := port_receive_handed hqa (hqseen ▸ hlen) hqh
  have hcode := code_receive_handed hqa (hqseen ▸ hlen) hqh
  rw [hqseen] at hport hcode
  exact ⟨q, _, _, rfl, hport, hcode, hexec⟩

theorem handed_burst (cfg : PortConfig) (m : Maint) (seen : List Bool) :
    (handed cfg m seen).burstCode = m.burstCode ∧ (handed cfg m seen).burstLeft = m.burstLeft ∧
      (handed cfg m seen).burstRunning = m.burstRunning := by
  unfold handed
  split
  · exact ⟨rfl, rfl, rfl⟩
  · rw [counted_eq]
    exact ⟨rfl, rfl, rfl⟩

/-- What an ALIGNED port's maintenance unit is after a whole overhead byte, as O10 lists it. -/
theorem handed_symbol {cfg : PortConfig} {m m' : Maint} {seen : List Bool} {y : Nibble} {x : Sym}
    (hm : m' = handed cfg m seen) (hlen : seen.length = 8)
    (hy : ∀ i < 4, seen[4 + i]? = some (y.getLsbD (3 - i))) (hx : x = symOf y) :
    m'.runSym = some x ∧
      m'.runLength = (if m.runSym = some x then
        (if m.runLength < 64 then m.runLength + 1 else m.runLength) else 1) ∧
      (m.farAlarm = false → m'.farAlarm = decide (x = .farAlarm ∧ m'.runLength = 16) ∧
        m'.absence = if m'.farAlarm then 0 else m.absence) ∧
      (m.farAlarm = true → m'.farAlarm = decide (x = .farAlarm ∨ m.absence + 1 < 16) ∧
        m'.absence = (if x = .farAlarm then 0 else if m.absence + 1 < 16 then m.absence + 1 else 0)) ∧
      (m'.runLength ≠ 64 ∨ x = .quiet ∨ x = .farAlarm ∨ m.recognized = true → m' = { m with
        runSym := m'.runSym, runLength := m'.runLength,
        recognized := m.recognized && decide (m.runSym = some x),
        absence := m'.absence, farAlarm := m'.farAlarm }) := by
  rw [handed_whole hlen.ge, symbol_seen hlen hy, ← hx] at hm
  have hsym : m'.runSym = some x := by rw [hm, counted_eq]
  have hlength : m'.runLength = if m.runSym = some x then satSucc 64 m.runLength else 1 := by
    rw [hm, counted_eq]
  have hjudged : m'.runLength = (judged m x).runLength := by rw [hlength, judged_eq]
  have hfar : m'.farAlarm = (judged m x).farAlarm := by rw [hm, counted_eq]
  have habsence : m'.absence = (judged m x).absence := by rw [hm, counted_eq]
  refine ⟨hsym, hlength, ?_, ?_, fun h => ?_⟩
  · rw [hjudged, hfar, habsence]
    exact (judged_far m x).1
  · rw [hfar, habsence]
    exact (judged_far m x).2
  · refine (hm.trans (counted_unrecognized (hm ▸ h))).trans ?_
    rw [hsym, hlength, hfar, habsence]
    exact judged_eq m x

/-- Settles O10. -/
theorem deliveredFrameIsWrittenAndCounted : Obligations.DeliveredFrameIsWrittenAndCounted := by
  intro s n moment nibble symbol seen hseen ha hsel hlen h
  obtain ⟨q, q', code, hq, hq', -, hexec⟩ := exec_frame_handed (moment := moment) hseen ha hsel hlen h
  refine ⟨_, hexec, ?_⟩
  have hposted : q'.maint.farAlarm ≠ s.ports[n].maint.farAlarm →
      Posted (s.changeCounted n (q', code)).attention (.port n) .farAlarm := fun hne =>
    posted_changeCounted.mpr (.inl (posted_changePort.mpr (.inr ⟨rfl, .inr (.inl ⟨rfl, hne.symm⟩)⟩)))
  rw [port_changeCounted_same]
  have hlocate := locate_eq s.ports[n] s.ref.lastStart moment (nibble ++ symbol)
  have hnone := locate_none (p := s.ports[n]) (bits := nibble ++ symbol)
  have hsome := locate_some (p := s.ports[n]) (bits := nibble ++ symbol) ha
  have hslip := congrArg Port.slip hq'
  have hmaint := congrArg Port.maint hq'
  have hrx := congrArg Port.rxFirst hq'
  have hplace := congrArg Port.txPlace hq'
  generalize s.ports[n] = p at *
  rw [← hq] at hlocate
  have hfields : q.config = p.config ∧ q.framer = p.framer ∧ q.slip = p.slip ∧ q.maint = p.maint ∧
      q.rxFirst = p.rxFirst := by
    rw [hlocate]
    exact ⟨rfl, rfl, rfl, rfl, rfl⟩
  obtain ⟨hconfig, hframer, hqslip, hqmaint, hqrx⟩ := hfields
  dsimp only at hslip hmaint hrx hplace
  rw [hframer, hqslip] at hslip
  rw [hconfig, hqmaint] at hmaint
  rw [hframer, hqrx] at hrx
  refine ⟨fun hin hw => ?_, fun hin hw hinv => ?_, fun hlate => ⟨?_, ?_⟩, fun hshort => ?_,
    fun y x hwhole hy hx => handed_symbol hmaint hwhole hy hx, hposted, ?_, ?_, ?_,
    fun offset hin hoffset => ?_, ?_, ?_⟩
  · rw [hslip, if_neg (Nat.not_le.mpr hin), header_begun hw]
  · have hnot : p.slip.writing = none := by
      cases hwrite : p.slip.writing with
      | none => rfl
      | some w => exact absurd (hinv.writing w hwrite).1 (by omega)
    rw [hslip, if_neg (Nat.not_le.mpr hin), header_dropped hw hnot]
    rfl
  · rw [hslip, if_pos hlate, header_eq]
  · rw [hrx, if_pos hlate]
  · rw [hmaint, handed_short hshort]
  · rw [hmaint, (handed_burst ..).1]
  · rw [hmaint, (handed_burst ..).2.1]
  · rw [hmaint, (handed_burst ..).2.2]
  · rw [hrx, if_neg (Nat.not_le.mpr hin), hoffset, hplace]
    rfl
  · rw [hplace, hq]
    split
    case isTrue hc => rw [hnone hc]
    case isFalse hc => rw [hsome hc]; rfl
  · calc q'
      _ = { q with framer := q'.framer, slip := q'.slip, maint := q'.maint, txPlace := q'.txPlace,
                   rxFirst := q'.rxFirst } := by rw [hq']
      _ = { p with framer := q'.framer, slip := q'.slip, maint := q'.maint, txPlace := q'.txPlace,
                   rxFirst := q'.rxFirst } := by rw [hlocate]

end Sys2Proof.Proofs
end

section
/-! PROOFS. Loop codes recognized in received frames (O11, O12), LOS_n (O13), all-ones periods (O14) and slots written
(O16). -/

namespace Sys2Proof.Proofs

open Sys2Proof Sys2Proof.Machine

/-- The 64th frame of a code's run, not recognized yet, is (R147). -/
theorem recognizes_sixtyFourth {m : Maint} {c : Code} (hsym : m.runSym = some (codeSym c))
    (hrun : m.runLength = 63) (hrec : m.recognized = false) :
    (judged m (codeSym c)).recognizes = some c := by
  rw [recognizes_eq_some, judged_eq]
  dsimp only
  rw [if_pos hsym, hrun, hrec]
  exact ⟨rfl, rfl, rfl⟩

/-- A port's maintenance unit after a recognized code, before what the code does (R147). -/
def recognizing (m : Maint) (c : Code) : Maint :=
  { judged m (codeSym c) with recognized := true, lastCode := some c }

theorem recognizing_loop (m : Maint) (c : Code) :
    (recognizing m c).loop = m.loop ∧ (recognizing m c).loopTimer = m.loopTimer := by
  rw [recognizing, judged_eq]
  exact ⟨rfl, rfl⟩

/-- The frame that completes a code's run, as O11 and O12 speak of it. -/
theorem exec_code_recognized {s : State} {n : PortNo} {moment : Nat} {nibble symbol seen : List Bool} {c : Code}
    (hseen : seen = s.ports[n].seen (nibble ++ symbol)) (ha : s.ports[n].aligned = true)
    (hsel : s.ref.selection ≠ .port n)
    (h : 4 ≤ s.ports[n].framer.overhead.length ∨ seen.take 4 = [true, false, true, true] ∨
      s.ports[n].framer.erroredRun < 3)
    (hlen : (seen.drop 4).length = 4) (hcode : symOf (bitsNibble (seen.drop 4)) = codeSym c)
    (hsym : s.ports[n].maint.runSym = some (codeSym c)) (hrun : s.ports[n].maint.runLength = 63)
    (hrec : s.ports[n].maint.recognized = false) :
    ∃ q : Port, exec (.alignedFrameReceived n moment nibble symbol) s = .next (s.changeCounted n (q, true)) ∧
      q.maint = acted s.ports[n].config (recognizing s.ports[n].maint c) c := by
  have hwhole : 8 ≤ seen.length := by
    rw [List.length_drop] at hlen
    omega
  obtain ⟨q, q', code, hq, hq', hcoded, hexec⟩ :=
    exec_frame_handed (moment := moment) hseen ha hsel (by omega) h
  have hmaint := congrArg Port.maint hq'
  have hcoded := hcoded hwhole
  rw [locate_eq] at hq
  rw [hq] at hmaint hcoded
  dsimp only at hmaint hcoded
  have hsome := recognizes_sixtyFourth hsym hrun hrec
  rw [hcode, hsome] at hcoded
  rw [handed_whole hwhole, hcode, counted_some hsome] at hmaint
  subst hcoded
  exact ⟨q', hexec, hmaint⟩

section
variable {s : State} {n : PortNo} {q : Port}

/-- The code recognized is posted. -/
theorem posted_code : Posted (s.changeCounted n (q, true)).attention (.port n) .code :=
  posted_changeCounted.mpr (.inr ⟨rfl, rfl, rfl⟩)

/-- So is a loop state that changes with it. -/
theorem posted_loop {code : Bool} (h : q.maint.loop ≠ s.ports[n].maint.loop) :
    Posted (s.changeCounted n (q, code)).attention (.port n) .loop :=
  posted_changeCounted.mpr (.inl (posted_changePort.mpr (.inr ⟨rfl, .inr (.inr ⟨rfl, h.symm⟩)⟩)))

/-- Where the loop stands no LOOP is posted. -/
theorem posted_loop_stands {code : Bool} (h : q.maint.loop = s.ports[n].maint.loop)
    (hposted : Posted (s.changeCounted n (q, code)).attention (.port n) .loop) :
    Posted s.attention (.port n) .loop := by
  obtain hport | ⟨-, -, hcode⟩ := posted_changeCounted.mp hposted
  · obtain hold | ⟨-, ⟨hd, -⟩ | ⟨hd, -⟩ | ⟨-, hne⟩⟩ := posted_changePort.mp hport
    · exact hold
    · cases hd
    · cases hd
    · exact absurd h.symm hne
  · cases hcode

end

theorem acted_keeps (cfg : PortConfig) (m : Maint) (c : Code) :
    (acted cfg m c).recognized = m.recognized ∧ (acted cfg m c).lastCode = m.lastCode := by
  rw [acted_eq]
  exact ⟨rfl, rfl⟩

/-- Settles O11. -/
theorem loopUpIsRecognized : Obligations.LoopUpIsRecognized := by
  intro s n moment nibble symbol seen hseen ha hsel h hbits hsym hrun hrec
  obtain ⟨q, hexec, hmaint⟩ := exec_code_recognized (moment := moment) (c := .loopUp) hseen ha hsel h
    (by rw [hbits]; rfl) (by rw [hbits]; rfl) hsym hrun hrec
  obtain ⟨hkept, hlast⟩ := acted_keeps s.ports[n].config (recognizing s.ports[n].maint .loopUp) .loopUp
  obtain ⟨hloop, htimer⟩ := recognizing_loop s.ports[n].maint .loopUp
  rw [← hmaint] at hkept hlast
  refine ⟨_, hexec, ?_⟩
  rw [port_changeCounted_same]
  refine ⟨hkept, hlast, posted_code, fun hresponse hoff => ?_, fun hno => ?_⟩
  · have henters : q.maint.loop = .returnCode ∧ q.maint.loopTimer = s.ports[n].config.loopTimeout.toNat * 80000 := by
      rw [hmaint, acted, if_pos ⟨hresponse, hloop.trans hoff⟩]
      exact ⟨rfl, rfl⟩
    refine ⟨henters.1, henters.2, posted_loop ?_⟩
    rw [henters.1, hoff]
    decide
  · have hstands : ¬ (s.ports[n].config.codeResponse = true ∧
        (recognizing s.ports[n].maint .loopUp).loop = .off) := by
      rintro ⟨hresponse, hoff⟩
      obtain hno | hno := hno
      · rw [hresponse] at hno
        cases hno
      · exact hno (hloop.symm.trans hoff)
    rw [acted, if_neg hstands] at hmaint
    dsimp only
    rw [hmaint]
    exact ⟨hloop, htimer⟩

/-- Settles O12. -/
theorem loopDownIsRecognized : Obligations.LoopDownIsRecognized := by
  intro s n moment nibble symbol seen hseen ha hsel h hbits hsym hrun hrec
  obtain ⟨q, hexec, hmaint⟩ := exec_code_recognized (moment := moment) (c := .loopDown) hseen ha hsel h
    (by rw [hbits]; rfl) (by rw [hbits]; rfl) hsym hrun hrec
  obtain ⟨hkept, hlast⟩ := acted_keeps s.ports[n].config (recognizing s.ports[n].maint .loopDown) .loopDown
  obtain ⟨hloop, htimer⟩ := recognizing_loop s.ports[n].maint .loopDown
  rw [← hmaint] at hkept hlast
  refine ⟨_, hexec, ?_⟩
  rw [port_changeCounted_same]
  refine ⟨hkept, hlast, posted_code, fun hreturn => ?_, fun hno => ?_⟩
  · rw [acted, if_pos (hloop.trans hreturn)] at hmaint
    have hoff : q.maint.loop = .off := congrArg Maint.loop hmaint
    refine ⟨hoff, congrArg Maint.loopTimer hmaint, posted_loop ?_⟩
    rw [hoff, hreturn]
    decide
  · rw [acted, if_neg (hloop.symm ▸ hno)] at hmaint
    have hstands := (congrArg Maint.loop hmaint).trans hloop
    refine ⟨hstands, (congrArg Maint.loopTimer hmaint).trans htimer, fun e he hx hk => ?_⟩
    exact posted_loop_stands hstands ⟨e, he, hx, hk⟩

/-! ### LOS_n (R8, R10) -/

/-- A change of the defects alone posts PORT_DEFECT where the source moves (R14). -/
theorem changePort_defects {s : State} {n : PortNo} {q : Port} (hm : q.maint = s.ports[n].maint)
    (ha : q.aligned = s.ports[n].aligned) : s.changePort n q = { s with
      ports := s.ports.set n q,
      attention := if s.ports[n].sourceDefect ≠ q.sourceDefect then postTo s.attention (.port n) .portDefect
        else s.attention } := by
  have hstays : ¬ (s.ports[n].aligned = true ∧ q.aligned = false ∧ s.ref.selection = .port n) := by
    rw [ha]
    rintro ⟨h1, h2, -⟩
    rw [h1] at h2
    cases h2
  rw [changePort_frame, ref_changePort, if_neg hstays, attention_changePort, hm, bne_self_eq_false,
    bne_self_eq_false]
  simp only [State.postIf, bne_iff_ne, Bool.false_eq_true, if_false]
  split <;> rfl

theorem exec_losDeasserted (s : State) (n : PortNo) : exec (.losDeasserted n) s =
    .next (s.changePort n ({ s.ports[n] with los := false }).followLos) := rfl

theorem exec_losAsserted (s : State) (n : PortNo) : exec (.losAsserted n) s =
    .next (s.changePort n ({ s.ports[n] with los := true }).followLos) := rfl

/-- SIG_LOST raised on a port outside INWARD_HOST, and what its ALIGNED framer loses with it. -/
theorem followLos_asserted {p : Port} (he : p.config.enable = true) (hl : p.maint.loop ≠ .inwardHost) :
    ({ p with los := true } : Port).followLos = { p with
      los := true,
      defects := { p.defects with sigLost := true, unframed := p.defects.unframed || p.aligned },
      framer := { p.framer with
        state := .search, verified := 0, next := none, recent := [], overhead := [], erroredRun := 0,
        period := if p.aligned then ⟨none, 0, true⟩ else p.framer.period },
      slip := if p.aligned then { p.slip with writing := none, slot := [] } else p.slip,
      maint := if p.aligned then { p.maint with runSym := none, runLength := 0, recognized := false,
                                                absence := 0, farAlarm := false } else p.maint } := by
  have hsearch := toSearch_eq { p with los := true, defects := { p.defects with sigLost := true } } none []
  have hunframed : (p.defects.unframed || (p.aligned && p.config.enable)) =
      (p.defects.unframed || p.aligned) := by rw [he, Bool.and_true]
  rw [followLos_low (p := { p with los := true }) he hl rfl, Port.loseSignal, hsearch, ← hunframed]
  rfl

/-- Settles O13: LOS_n followed, and the level alone taken elsewhere. -/
theorem sigLostFollowsLosPin : Obligations.SigLostFollowsLosPin := by
  intro s n
  refine ⟨fun he hl => ?_, fun h => ?_, fun he hl => ?_, fun h => ?_⟩
  · rw [exec_losDeasserted, followLos_high (p := { s.ports[n] with los := false }) he hl rfl]
    exact congrArg Host.Outcome.next (changePort_defects rfl rfl)
  · rw [exec_losDeasserted, followLos_off (p := { s.ports[n] with los := false }) h,
      changePort_quiet s n { s.ports[n] with los := false } rfl rfl rfl rfl]
  · rw [exec_losAsserted, followLos_asserted he hl]
    refine ⟨_, rfl, ?_⟩
    rw [changePort_same]
    refine ⟨rfl, rfl, rfl, rfl, rfl, rfl, fun m hm => changePort_other s _ hm, fun h => ?_, ?_⟩
    · rw [ref_changePort, if_neg]
      rintro ⟨ha, -, hsel⟩
      obtain h | h := h
      · rw [ha] at h
        cases h
      · exact h hsel
    · refine (changePort_frame s n _).trans ?_
      rw [ports_changePort]
  · rw [exec_losAsserted, followLos_off (p := { s.ports[n] with los := true }) h,
      changePort_quiet s n { s.ports[n] with los := true } rfl rfl rfl rfl]

/-! ### All-ones periods (R11) -/

theorem all_id_eq (l : List Bool) : l.all id = decide (∀ b ∈ l, b = true) := by
  rw [Bool.eq_iff_iff, List.all_eq_true, decide_eq_true_eq]
  rfl

theorem exec_allOnesPeriod (s : State) (n : PortNo) (start : Place) (bits : List Bool) :
    exec (.allOnesPeriod n ⟨start, bits⟩) s = .next (s.changePort n (s.ports[n].periodBits start bits)) := rfl

/-- A frame period that goes on, and one that ends. -/
theorem periodBits_eq {p : Port} {start first : Place} {bits taken : List Bool} {ones : Bool}
    (he : p.config.enable = true) (ha : p.aligned = false) (hfirst : first = p.framer.period.next.getD start)
    (htaken : p.received first (bits.take (288 - p.framer.period.count)) = taken)
    (hones : ones = (p.framer.period.ones && decide (∀ b ∈ taken, b = true))) :
    p.periodBits start bits =
      if p.framer.period.count + taken.length < 288 then { p with framer := { p.framer with
        period := ⟨some (first + Fin.ofNat 288 taken.length), p.framer.period.count + taken.length, ones⟩ } }
      else ({ p with framer := { p.framer with
        period := ⟨some (first + Fin.ofNat 288 taken.length), 0, true⟩ } } : Port).onesPeriod ones := by
  subst hfirst htaken
  rw [← all_id_eq] at hones
  subst hones
  rw [Port.periodBits, if_pos ⟨he, ha⟩]

/-- The run and AIS_IN after a period (R11). -/
theorem onesPeriod_true (p : Port) : p.onesPeriod true = { p with
    framer := { p.framer with allOnesRun := if p.framer.allOnesRun < 3 then p.framer.allOnesRun + 1
      else p.framer.allOnesRun },
    defects := { p.defects with aisIn := p.defects.aisIn || decide (2 ≤ p.framer.allOnesRun) } } := rfl

theorem onesPeriod_false (p : Port) :
    p.onesPeriod false = { p with framer := { p.framer with allOnesRun := 0 } } := rfl

/-- Settles O14. -/
theorem allOnesPeriodsRaiseAis : Obligations.AllOnesPeriodsRaiseAis := by
  intro s n start first offset bits wanted taken ones next hfirst hoffset hwanted hline hown hones hnext
  subst hwanted
  have htaken := received_eq hoffset hline hown
  refine ⟨fun he ha => ⟨fun hlt => ?_, fun hge => ?_⟩, fun h => ?_⟩
  all_goals rw [exec_allOnesPeriod]
  · rw [periodBits_eq he ha hfirst htaken hones, if_pos hlt, ← hnext]
    exact congrArg Host.Outcome.next (changePort_quiet s n _ rfl rfl rfl rfl)
  · rw [periodBits_eq he ha hfirst htaken hones, if_neg (Nat.not_lt.mpr hge), ← hnext]
    refine ⟨_, rfl, ?_⟩
    rw [changePort_same]
    refine ⟨fun h => ?_, fun h => ?_, ?_⟩
    · rw [h, onesPeriod_false]
      exact ⟨rfl, rfl⟩
    · rw [h, onesPeriod_true]
      exact ⟨rfl, rfl⟩
    · refine (changePort_frame s n _).trans ?_
      rw [ref_changePort, if_neg fun h => Bool.false_ne_true (ha.symm.trans h.1)]
      cases ones <;> rfl
  · have hoff : s.ports[n].periodBits start bits = s.ports[n] := by
      refine if_neg fun ⟨he, ha⟩ => ?_
      obtain h | h := h
      · rw [he] at h
        cases h
      · rw [ha] at h
        cases h
    rw [hoff, changePort_self]

/-! ### Slots written (R31) -/

/-- The bits of the slot in progress: there where the stream has given as many as are wanted. -/
theorem slotBits_eq {p : Port} {k : Nat} {bits wanted taken : List Bool}
    (hwanted : wanted = bits.take (8 - p.slip.slot.length))
    (hline : p.maint.loop ≠ .inwardHost → taken = wanted)
    (hown : p.maint.loop = .inwardHost → taken = p.rxFirst.elim [] fun first =>
      ((p.txLast ++ p.txBits).drop (first + 8 * k + p.slip.slot.length)).take wanted.length) :
    p.slotBits k bits = if taken.length = wanted.length then some (p.slip.slot ++ taken) else none := by
  by_cases hl : p.maint.loop = .inwardHost
  · rw [Port.slotBits, if_pos (inward_iff.mpr hl), hown hl, hwanted]
    rfl
  · rw [slotBits_line hl, hline hl, if_pos rfl, hwanted]

/-- A byte's bits, one by one, are those that spell it. -/
theorem bitsByte_eq {l : List Bool} {b : Byte} (hlen : l.length = 8)
    (h : ∀ i < 8, l[i]? = some (b.getLsbD (7 - i))) : bitsByte l = b := by
  have hbits : l = byteBits b := by
    refine List.ext_getElem? fun i => ?_
    by_cases hi : i < 8
    · rw [h i hi, byteBits, List.getElem?_map, List.getElem?_range hi, Option.map_some,
        BitVec.getMsbD_eq_getLsbD]
      simp [hi]
    · rw [List.getElem?_eq_none (by omega), List.getElem?_eq_none (by rw [length_byteBits]; omega)]
  rw [hbits, bitsByte_byteBits]

section
variable {p : Port} {w : List Byte} {bits slot : List Bool} (hw : p.slip.writing = some w)
include hw

theorem nextSlot_some : p.nextSlot bits = p.slotBits w.length bits := by
  rw [Port.nextSlot, hw, Option.bind_some]

theorem writeSlot_none (h : p.slotBits w.length bits = none) : p.writeSlot bits = p := by
  rw [Port.writeSlot, nextSlot_some hw, h]

theorem complete_none (h : p.slotBits w.length bits = none) : p.complete bits = p := by
  rw [Port.complete, nextSlot_some hw, h]

variable (hs : p.slotBits w.length bits = some slot)
include hs

/-- One of the first 35 slots: kept until it is whole, and then written. -/
theorem writeSlot_eq (h : w.length < 35) : p.writeSlot bits = { p with slip :=
    if slot.length < 8 then { p.slip with slot := slot }
    else { p.slip with writing := some (w ++ [bitsByte slot]), slot := [] } } := by
  rw [Port.writeSlot, nextSlot_some hw, hs]
  simp only [SlipBuffer.writeSlot, hw, Config.lastSlot, if_pos h]

/-- The last slot: with it the frame joins those waiting. -/
theorem complete_eq (h : w.length = 35) : p.complete bits = { p with slip :=
    if slot.length < 8 then { p.slip with slot := slot }
    else { p.slip with waiting := p.slip.waiting ++ [w ++ [bitsByte slot]], writing := none, slot := [] } } := by
  rw [Port.complete, nextSlot_some hw, hs]
  simp only [SlipBuffer.complete, hw, Config.lastSlot, if_pos h]

end

/-- Nothing is written where no frame is, or where the last slot is due. -/
theorem writeSlot_off {p : Port} (h : ∀ w, p.slip.writing = some w → 35 ≤ w.length) (bits : List Bool) :
    p.writeSlot bits = p := by
  unfold Port.writeSlot SlipBuffer.writeSlot
  split
  · split
    case h_1 w hw =>
      rw [if_neg (Nat.not_lt.mpr (h w hw))]
    case h_2 => rfl
  · rfl

theorem complete_off {p : Port} (h : ∀ w, p.slip.writing = some w → w.length ≠ 35) (bits : List Bool) :
    p.complete bits = p := by
  unfold Port.complete SlipBuffer.complete
  split
  · split
    case h_1 w hw => rw [if_neg (h w hw)]
    case h_2 => rfl
  · rfl

theorem exec_writeSlot (s : State) (n : PortNo) (bits : List Bool) : exec (.slipBufferSlotWritten n bits) s =
    .next (s.changePort n (s.ports[n].writeSlot bits)) := rfl

theorem exec_complete (s : State) (n : PortNo) (bits : List Bool) : exec (.frameWriteComplete n bits) s =
    .next (s.changePort n (s.ports[n].complete bits)) := rfl

/-- A change of a port's slip buffer is quiet. -/
theorem changePort_slip (s : State) (n : PortNo) (b : SlipBuffer) :
    s.changePort n { s.ports[n] with slip := b } =
      { s with ports := s.ports.set n { s.ports[n] with slip := b } } :=
  changePort_quiet s n _ rfl rfl rfl rfl

theorem fill_eq (b : SlipBuffer) : b.fill = 36 * b.waiting.length +
    (match b.writing with | none => 0 | some w => w.length) := by
  unfold SlipBuffer.fill
  cases b.writing <;> rfl

theorem fill_le {p : Port} (h : p.SlipInv) : p.slip.fill ≤ 72 := by
  have hwaiting := h.waiting
  rw [fill_eq]
  cases hw : p.slip.writing with
  | none =>
    dsimp only
    omega
  | some w =>
    obtain ⟨hone, hlen⟩ := h.writing w hw
    dsimp only
    omega

/-- Slot k of the transmit frame, where an INWARD port's frame began with it. -/
theorem slotBits_own {p : Port} {k : Nat} {b : List Byte} {bits : List Bool} (hl : p.maint.loop = .inwardHost)
    (hfirst : p.rxFirst = some 288) (hlast : p.txLast.length = 288) (hslot : p.slip.slot = [])
    (hb : p.txPayload = some b) (hk : k ≤ b.length) (hbits : 8 ≤ bits.length) :
    p.slotBits k bits = some (byteBits ((((0xB : Nibble) ++ p.txSymbol) :: b).getD k 0)) := by
  have hlen : (bits.take 8).length = 8 := by rw [List.length_take]; omega
  have hk' : k < (((0xB : Nibble) ++ p.txSymbol) :: b).length := by rw [List.length_cons]; omega
  have hown : ((p.txLast ++ p.txBits).drop (288 + 8 * k)).take 8 =
      byteBits ((((0xB : Nibble) ++ p.txSymbol) :: b).getD k 0) := by
    rw [← hlast, ← List.drop_drop, List.drop_left, txBits_some hb, slotBits_slotsBits hk',
      List.getD_eq_getElem _ _ hk']
  rw [slotBits_eq (wanted := bits.take 8) (by rw [hslot]; rfl) (fun h => absurd hl h) fun _ => rfl, hfirst,
    hslot, hlen, Option.elim_some, List.length_nil, Nat.add_zero, hown, if_pos (length_byteBits _),
    List.nil_append]

/-- Settles O16. -/
theorem slotsAreWrittenInOrder : Obligations.SlotsAreWrittenInOrder := by
  refine ⟨fun p h => ⟨fill_le h, (fill_eq p.slip).trans (by cases p.slip.writing <;> rfl)⟩,
    fun s n bits wanted hwanted => ⟨fun w taken slot hw hline hown hslot => ?_,
      fun w b hw hl hfirst hlast hempty hb hpayload h hbits => ?_, fun h => ?_, fun h => ?_⟩⟩
  · have hbits := slotBits_eq (k := w.length) hwanted hline fun hl =>
      (hown hl).trans (by cases s.ports[n].rxFirst <;> rfl)
    rw [← hslot] at hbits
    refine ⟨fun hlen hlt => ?_, fun byte hlen hwhole hbyte => ?_, fun hlt => ?_⟩
    · rw [if_pos hlen] at hbits
      refine ⟨fun h => ?_, fun h => ?_⟩
      · rw [exec_writeSlot, writeSlot_eq hw hbits h, if_pos hlt, changePort_slip]
      · rw [exec_complete, complete_eq hw hbits h, if_pos hlt, changePort_slip]
    · rw [if_pos hlen] at hbits
      have hge : ¬ slot.length < 8 := by omega
      refine ⟨fun h => ?_, fun h => ?_⟩
      · rw [exec_writeSlot, writeSlot_eq hw hbits h, if_neg hge, bitsByte_eq hwhole hbyte, changePort_slip]
      · rw [exec_complete, complete_eq hw hbits h, if_neg hge, bitsByte_eq hwhole hbyte, changePort_slip]
    · rw [if_neg (by omega)] at hbits
      rw [exec_writeSlot, exec_complete, writeSlot_none hw hbits, complete_none hw hbits, changePort_self]
      exact ⟨rfl, rfl⟩
  · have hown := slotBits_own (k := w.length) hl hfirst hlast hempty hb (by omega) hbits
    rw [exec_writeSlot, writeSlot_eq hw hown h, if_neg (by rw [length_byteBits]; decide), bitsByte_byteBits,
      changePort_slip, ← hempty]
  · rw [exec_writeSlot, writeSlot_off h, changePort_self]
  · rw [exec_complete, complete_off h, changePort_self]

end Sys2Proof.Proofs
end

section
/-! PROOFS. Loop timers and bursts (O44), PORT_LOOP and PORT_SEND_CODE (O45). -/

namespace Sys2Proof.Proofs

open Sys2Proof Sys2Proof.Machine

/-! ### A sweep's postings -/

/-- A sweep over ports posts each one's change once. -/
theorem posted_sweep {f : Port → Port} {n : PortNo} {d : Change} {l : List PortNo} (hl : l.Nodup) (s : State) :
    Posted (l.foldl (fun s n => s.changePort n (f s.ports[n])) s).attention (.port n) d ↔
      Posted s.attention (.port n) d ∨ n ∈ l ∧ Moved s.ports[n] (f s.ports[n]) d := by
  induction l generalizing s with
  | nil => simp
  | cons m l ih =>
    obtain ⟨hm, hl⟩ := List.nodup_cons.mp hl
    rw [List.foldl_cons, ih hl, posted_changePort, changePort_get]
    by_cases hn : n = m
    · subst hn
      simp [hm]
    · simp [hn, Ne.symm hn]

theorem posted_changePorts {f : Port → Port} {n : PortNo} {d : Change} {s : State} :
    Posted (s.changePorts f).attention (.port n) d ↔
      Posted s.attention (.port n) d ∨ Moved s.ports[n] (f s.ports[n]) d := by
  have h := posted_sweep (f := f) (n := n) (d := d) (List.nodup_finRange 16) s
  rw [iff_true_intro (List.mem_finRange n), true_and] at h
  exact h

/-! ### Loop timers (R156) -/

/-- The loop's timer runs out at this turn. -/
def LoopReady (turn : Turn) (m : Maint) : Prop :=
  m.loop = .returnCode ∧ ((turn = .before ∧ m.loopTimer = 1 ∧ m.loopMark = .plain) ∨
    (turn = .after ∧ m.loopMark = .due))

theorem loopReady_iff {turn : Turn} {m : Maint} : LoopReady turn m ↔
    m.loop = .returnCode ∧ timerReady m.loopTimer m.loopMark turn = true := by
  cases turn <;> simp [LoopReady, timerReady]

theorem expireLoop_ready {turn : Turn} {p : Port} (h : LoopReady turn p.maint) : p.expireLoop turn =
    { p with maint := { p.maint with loop := .off, loopTimer := 0, loopMark := .plain } } := by
  rw [Port.expireLoop, if_pos (loopReady_iff.mp h)]
  simp [Port.setLoop, h.1]

theorem expireLoop_stands {turn : Turn} {p : Port} (h : ¬ LoopReady turn p.maint) : p.expireLoop turn = p :=
  if_neg (loopReady_iff.not.mp h)

theorem aligned_expireLoop (turn : Turn) (p : Port) : (p.expireLoop turn).aligned = p.aligned := by
  by_cases h : LoopReady turn p.maint
  · rw [expireLoop_ready h]
    rfl
  · rw [expireLoop_stands h]

theorem exec_sendCodeBurstEnd (s : State) (n : PortNo) : exec (.sendCodeBurstEnd n) s =
    .next (s.changePort n { s.ports[n] with maint := s.ports[n].maint.endBurst }) := rfl

theorem exec_loopTimerExpiry (turn : Turn) (s : State) :
    exec (.loopTimerExpiry turn) s = .next (s.changePorts (Port.expireLoop turn)) := rfl

/-- Settles O44. -/
theorem loopTimerExpiryEndsCodeLoop : Obligations.LoopTimerExpiryEndsCodeLoop := by
  refine ⟨fun s n => ⟨fun h => ?_, fun h => ?_⟩, fun turn s => ?_⟩
  · rw [exec_sendCodeBurstEnd, Maint.endBurst, if_pos h]
    exact congrArg Host.Outcome.next (changePort_quiet s n _ rfl rfl rfl rfl)
  · rw [exec_sendCodeBurstEnd, Maint.endBurst, if_neg h]
    exact congrArg Host.Outcome.next (changePort_self s n)
  · have hframe := changePorts_frame (aligned_expireLoop turn) s
    have hports := ports_changePorts s (Port.expireLoop turn)
    have hposted := fun n => posted_changePorts (f := Port.expireLoop turn) (n := n) (d := .loop) (s := s)
    refine ⟨_, exec_loopTimerExpiry turn s, ?_⟩
    generalize s.changePorts (Port.expireLoop turn) = t at hframe hports hposted ⊢
    refine ⟨hframe, fun n ready hready => ⟨fun h => ?_, fun h => ?_⟩⟩
    · have hturn : LoopReady turn s.ports[n].maint := hready.mp h
      have hport := expireLoop_ready hturn
      have hmoved : Moved s.ports[n] (s.ports[n].expireLoop turn) .loop := by
        refine .inr (.inr ⟨rfl, ?_⟩)
        rw [hport, hturn.1]
        exact LoopState.noConfusion
      exact ⟨(hports n).trans hport, (hposted n).mpr (.inr hmoved)⟩
    · have hturn : ¬ LoopReady turn s.ports[n].maint := fun hturn => h (hready.mpr hturn)
      exact (hports n).trans (expireLoop_stands hturn)

/-! ### PORT_LOOP (R151, R153) -/

theorem loopCommand_none {b : Byte} (h : 3 ≤ b.toNat) : loopCommand? b = none := by
  unfold loopCommand?
  repeat' split
  · subst b
    exact absurd h (by decide)
  · subst b
    exact absurd h (by decide)
  · subst b
    exact absurd h (by decide)
  · rfl

theorem loopCommand_some {b : Byte} {l : LoopState}
    (h : (b = 0 ∧ l = .off) ∨ (b = 1 ∧ l = .returnHost) ∨ (b = 2 ∧ l = .inwardHost)) :
    loopCommand? b = some l := by
  obtain ⟨rfl, rfl⟩ | ⟨rfl, rfl⟩ | ⟨rfl, rfl⟩ := h <;> rfl

theorem exec_portLoop {port command : Byte} {s : State} {x : Execution}
    (hx : s.handed (.portLoop port command) x) : exec (.portLoop port command) s =
      .next ((doPortLoop port command s).2.answering x (doPortLoop port command s).1) := carryOut_handed hx

theorem doPortLoop_badParam {port command : Byte} (h : 16 ≤ port.toNat ∨ 3 ≤ command.toNat) (s : State) :
    doPortLoop port command s = (⟨.badParam, []⟩, s) := by
  unfold doPortLoop
  by_cases hport : 16 ≤ port.toNat
  · exact onPort_none _ s hport
  · have hcommand := h.resolve_left hport
    rw [onPort_some (n := ⟨port.toNat, Nat.lt_of_not_le hport⟩) _ s rfl, loopCommand_none hcommand]
    rfl

theorem doPortLoop_disabled {port command : Byte} {s : State} {n : PortNo} {l : LoopState}
    (hn : n.val = port.toNat) (hl : loopCommand? command = some l) (he : s.ports[n].config.enable = false) :
    doPortLoop port command s = (⟨.wrongState, []⟩, s) := by
  rw [doPortLoop, onPort_some _ s hn, hl]
  exact if_neg (ne_true_of_eq_false he)

theorem doPortLoop_ok {port command : Byte} {s : State} {n : PortNo} {l : LoopState}
    (hn : n.val = port.toNat) (hl : loopCommand? command = some l) (he : s.ports[n].config.enable = true) :
    doPortLoop port command s = (⟨.ok, [s.ports[n].maint.loop.number, l.number]⟩,
      s.changePort n (s.ports[n].setLoop l)) := by
  rw [doPortLoop, onPort_some _ s hn, hl]
  exact if_pos he

/-- What a loop state that changes on an enabled port does to it (R10, R151, R153). -/
structure Relooped (p q : Port) (l : LoopState) : Prop where
  loop : q.maint.loop = l
  timer : q.maint.loopTimer = 0
  config : q.config = p.config
  los : q.los = p.los
  symbol : q.txSymbol = p.txSymbol
  payload : q.txPayload = p.txPayload
  last : q.txLast = p.txLast
  place : q.txPlace = p.txPlace
  entered : l = .inwardHost → q.framer = p.framer ∧ q.slip = p.slip ∧
    q.defects = { p.defects with sigLost := false }
  left : p.maint.loop = .inwardHost → q.defects.sigLost = p.los ∧
    (p.los = false → q.framer = p.framer ∧ q.slip = p.slip) ∧
    (p.los = true → q.framer.state = .search ∧ q.framer.next = none ∧ q.framer.recent = [])
  plain : l ≠ .inwardHost → p.maint.loop ≠ .inwardHost →
    q = { p with maint := { p.maint with loop := l, loopTimer := 0, loopMark := .plain } }

theorem setLoop_relooped {p : Port} {l : LoopState} (he : p.config.enable = true) (hne : p.maint.loop ≠ l) :
    Relooped p (p.setLoop l) l := by
  obtain ⟨hsame, -⟩ | ⟨-, ⟨hl, heq⟩ | ⟨hl, hp, heq⟩ | ⟨hl, hp, heq⟩⟩ := setLoop_cases p l
  · exact absurd hsame hne
  · -- INWARD_HOST entered
    rw [heq]
    exact ⟨rfl, rfl, rfl, rfl, rfl, rfl, rfl, rfl, fun _ => ⟨rfl, rfl, rfl⟩,
      fun hp => absurd (hp.trans hl.symm) hne, fun hno => absurd hl hno⟩
  · -- INWARD_HOST left: LOS_n is followed again
    rw [heq]
    cases hlos : p.los with
    | false =>
      rw [followLos_high (p := withLoop p l) he hl hlos]
      exact ⟨rfl, rfl, rfl, rfl, rfl, rfl, rfl, rfl, fun hin => absurd hin hl,
        fun _ => ⟨hlos.symm, fun _ => ⟨rfl, rfl⟩, fun h => by rw [hlos] at h; cases h⟩, fun _ hno => absurd hp hno⟩
    | true =>
      rw [followLos_low (p := withLoop p l) he hl hlos, Port.loseSignal, toSearch_eq]
      refine ⟨?_, ?_, rfl, rfl, rfl, rfl, rfl, rfl, fun hin => absurd hin hl,
        fun _ => ⟨hlos.symm, fun h => ?_, fun _ => ⟨rfl, rfl, rfl⟩⟩, fun _ hno => absurd hp hno⟩
      · dsimp only
        split <;> rfl
      · dsimp only
        split <;> rfl
      · rw [hlos] at h
        cases h
  · -- between two loops of the line
    rw [heq]
    exact ⟨rfl, rfl, rfl, rfl, rfl, rfl, rfl, rfl, fun hin => absurd hin hl, fun hin => absurd hin hp,
      fun _ _ => rfl⟩

/-! ### PORT_SEND_CODE (R158) -/

theorem code_none {b : Byte} (h : b ≠ 0x6 ∧ b ≠ 0x9) : code? b = none := by
  rw [code?, if_neg h.1, if_neg h.2]

theorem code_number (c : Code) : code? c.number = some c := by
  cases c <;> rfl

theorem exec_portSendCode {port code : Byte} {count : Half} {s : State} {x : Execution}
    (hx : s.handed (.portSendCode port code count) x) : exec (.portSendCode port code count) s =
      .next ((doPortSendCode port code count s).2.answering x (doPortSendCode port code count s).1) :=
  carryOut_handed hx

theorem doPortSendCode_badParam {port code : Byte} (h : 16 ≤ port.toNat ∨ (code ≠ 0x6 ∧ code ≠ 0x9))
    (count : Half) (s : State) : doPortSendCode port code count s = (⟨.badParam, []⟩, s) := by
  unfold doPortSendCode
  by_cases hport : 16 ≤ port.toNat
  · exact onPort_none _ s hport
  · rw [onPort_some (n := ⟨port.toNat, Nat.lt_of_not_le hport⟩) _ s rfl, code_none (h.resolve_left hport)]
    rfl

section
variable {port : Byte} {count : Half} {s : State} {n : PortNo} {c : Code} (hn : n.val = port.toNat)
include hn

theorem doPortSendCode_disabled (he : s.ports[n].config.enable = false) :
    doPortSendCode port c.number count s = (⟨.wrongState, []⟩, s) := by
  rw [doPortSendCode, onPort_some _ s hn, code_number]
  exact if_neg (ne_true_of_eq_false he)

theorem doPortSendCode_ok (he : s.ports[n].config.enable = true) :
    doPortSendCode port c.number count s =
      (⟨.ok, halfBytes (BitVec.ofNat 16 s.ports[n].maint.burstLeft)⟩, { s with
        ports := s.ports.set n { s.ports[n] with maint := s.ports[n].maint.setBurst c count.toNat } }) := by
  rw [doPortSendCode, onPort_some _ s hn, code_number]
  exact if_pos he

end

theorem setBurst_moves {m : Maint} {count : Half} (h : count ≠ 0 ∨ m.burstLeft ≠ 0) (c : Code) :
    m.setBurst c count.toNat = { m with
      burstCode := c, burstLeft := count.toNat, burstRunning := decide (count ≠ 0) } := by
  have hzero : count.toNat = 0 ↔ count = 0 := BitVec.toNat_eq (y := 0#16).symm
  rw [Maint.setBurst, if_neg (by rw [hzero]; tauto)]
  have hpos : (0 < count.toNat) ↔ count ≠ 0 := by rw [Nat.pos_iff_ne_zero, Ne, hzero]
  rw [decide_eq_decide.mpr hpos]

/-- Settles O45. -/
theorem loopAndCodeRequestsSetPort : Obligations.LoopAndCodeRequestsSetPort := by
  refine fun s x port => ⟨fun command hx => ⟨fun h => ?_, fun n l hn hcommand => ?_⟩,
    fun code count hx => ⟨fun h => ?_, fun n c hn hcode => ?_⟩⟩
  · rw [exec_portLoop hx, doPortLoop_badParam h]
  · have hl := loopCommand_some hcommand
    rw [exec_portLoop hx]
    refine ⟨fun he => ?_, fun he hsame => ?_, fun he hne => ?_⟩
    · rw [doPortLoop_disabled hn hl he]
    · rw [doPortLoop_ok hn hl he, hsame, Port.setLoop, if_pos hsame, changePort_self]
    · obtain ⟨loop, timer, config, los, symbol, payload, last, place, entered, left, plain⟩ :=
        setLoop_relooped he hne
      rw [doPortLoop_ok hn hl he]
      refine ⟨s.changePort n (s.ports[n].setLoop l), rfl, ?_, fun m hm => changePort_other s _ hm, fun ha => ?_, ?_⟩
      · rw [ports_changePort]
        exact changePort_frame s n _
      · rw [changePort_same] at ha
        rw [ref_changePort, if_neg fun h => Bool.false_ne_true (h.2.1.symm.trans (ha.trans h.1))]
      · rw [changePort_same]
        exact ⟨loop, timer, config, los, symbol, payload, last, place, entered, left, plain⟩
  · rw [exec_portSendCode hx, doPortSendCode_badParam h]
  · subst hcode
    rw [exec_portSendCode hx]
    refine ⟨fun he => ?_, fun he hcount hleft => ?_, fun he h => ?_⟩
    · rw [doPortSendCode_disabled hn he]
    · have hstands : s.ports[n].maint.setBurst c count.toNat = s.ports[n].maint :=
        if_pos ⟨by rw [hcount]; rfl, hleft⟩
      rw [doPortSendCode_ok hn he, hstands, hleft]
      exact congrArg (fun t : State => Host.Outcome.next (t.answering x ⟨.ok, [0, 0]⟩))
        (congrArg (fun v => { s with ports := v }) (set_get_self s.ports n))
    · rw [doPortSendCode_ok hn he, setBurst_moves h]

end Sys2Proof.Proofs
end

section
/-! PROOFS. PORT_SET (O46). -/

namespace Sys2Proof.Proofs

open Sys2Proof Sys2Proof.Machine

/-! ### The fields of a PORT_SET (R19) -/

theorem optBit_some {o : Option Byte} (h : ∀ b, o = some b → b = 0 ∨ b = 1) :
    optBit? o = some (o.map fun b => decide (b = 1)) := by
  cases o with
  | none => rfl
  | some b => obtain rfl | rfl := h b rfl <;> rfl

theorem optBit_none {b : Byte} (h : 2 ≤ b.toNat) : optBit? (some b) = none := by
  have h0 : b ≠ 0 := by rintro rfl; exact absurd h (by decide)
  have h1 : b ≠ 1 := by rintro rfl; exact absurd h (by decide)
  rw [optBit?, bit?, if_neg h0, if_neg h1, Option.map_none]

theorem anyField_iff {q : PortSetReq} : anyField q = true ↔ q.enable ≠ none ∨ q.idleCode ≠ none ∨
    q.codeResponse ≠ none ∨ q.farSend ≠ none ∨ q.threshold ≠ none ∨ q.loopTimeout ≠ none := by
  simp only [anyField, Bool.or_eq_true, Option.isSome_iff_ne_none, or_assoc]

/-- No field, a bit out of its range, or threshold 0. -/
theorem portSetBits_none {q : PortSetReq}
    (h : (q.enable = none ∧ q.idleCode = none ∧ q.codeResponse = none ∧ q.farSend = none ∧
        q.threshold = none ∧ q.loopTimeout = none) ∨
      (∃ b, (q.enable = some b ∨ q.codeResponse = some b ∨ q.farSend = some b) ∧ 2 ≤ b.toNat) ∨
      q.threshold = some 0) : portSetBits q = none := by
  unfold portSetBits
  split
  case h_2 => rfl
  case h_1 en cr fs hen hcr hfs =>
    refine if_neg fun ⟨hany, hthreshold⟩ => ?_
    obtain h | ⟨b, h, hb⟩ | h := h
    · obtain ⟨h1, h2, h3, h4, h5, h6⟩ := h
      rcases anyField_iff.mp hany with h | h | h | h | h | h
      all_goals exact h ‹_›
    · rcases h with h | h | h
      · rw [h, optBit_none hb] at hen
        cases hen
      · rw [h, optBit_none hb] at hcr
        cases hcr
      · rw [h, optBit_none hb] at hfs
        cases hfs
    · exact hthreshold h

theorem portSetBits_some {q : PortSetReq}
    (hany : q.enable ≠ none ∨ q.idleCode ≠ none ∨ q.codeResponse ≠ none ∨ q.farSend ≠ none ∨
      q.threshold ≠ none ∨ q.loopTimeout ≠ none)
    (hbits : ∀ b, q.enable = some b ∨ q.codeResponse = some b ∨ q.farSend = some b → b = 0 ∨ b = 1)
    (hthreshold : q.threshold ≠ some 0) :
    portSetBits q = some ⟨q.enable.map fun b => decide (b = 1), q.codeResponse.map fun b => decide (b = 1),
      q.farSend.map fun b => decide (b = 1)⟩ := by
  have hen := optBit_some fun b h => hbits b (.inl h)
  have hcr := optBit_some fun b h => hbits b (.inr (.inl h))
  have hfs := optBit_some fun b h => hbits b (.inr (.inr h))
  unfold portSetBits
  rw [hen, hcr, hfs]
  exact if_pos ⟨anyField_iff.mpr hany, hthreshold⟩

theorem exec_portSet {q : PortSetReq} {s : State} {x : Execution} (hx : s.handed (.portSet q) x) :
    exec (.portSet q) s = .next ((doPortSet q s).2.answering x (doPortSet q s).1) := carryOut_handed hx

theorem doPortSet_badParam {q : PortSetReq} (h : 16 ≤ q.port.toNat ∨ portSetBits q = none) (s : State) :
    doPortSet q s = (⟨.badParam, []⟩, s) := by
  unfold doPortSet
  by_cases hport : 16 ≤ q.port.toNat
  · exact onPort_none _ s hport
  · rw [onPort_some (n := ⟨q.port.toNat, Nat.lt_of_not_le hport⟩) _ s rfl, h.resolve_left hport]
    rfl

theorem doPortSet_ok {q : PortSetReq} {s : State} {n : PortNo} {b : PortSetBits} (hn : n.val = q.port.toNat)
    (hb : portSetBits q = some b) : doPortSet q s = (⟨.ok, []⟩, s.changePort n (s.ports[n].set q b)) := by
  rw [doPortSet, onPort_some _ s hn, hb]
  rfl

/-! ### The change of enable (R17, R18) -/

theorem setEnable_eq (p : Port) (e : Option Bool) : p.setEnable e =
    if e.getD p.config.enable = p.config.enable then p
    else if e.getD p.config.enable = true then p.enableUp else p.disableDown := by
  match e with
  | none => simp [Port.setEnable]
  | some true =>
    by_cases h : p.config.enable = true <;> simp [Port.setEnable, h]
  | some false =>
    by_cases h : p.config.enable = true <;> simp [Port.setEnable, h]

/-- What LOS_n followed leaves alone. -/
theorem followLos_keeps (p : Port) : p.followLos.config = p.config ∧ p.followLos.los = p.los ∧
    p.followLos.txSymbol = p.txSymbol ∧ p.followLos.txPayload = p.txPayload := by
  obtain ⟨heq, -⟩ | ⟨-, -, ⟨-, heq⟩ | ⟨-, heq⟩⟩ := followLos_cases p
  · rw [heq]
    exact ⟨rfl, rfl, rfl, rfl⟩
  · rw [heq]
    exact ⟨rfl, rfl, rfl, rfl⟩
  · rw [heq, Port.loseSignal, toSearch_eq]
    exact ⟨rfl, rfl, rfl, rfl⟩

/-- A port put into service, before it follows LOS_n (R17). -/
def enabling (p : Port) : Port := { p with
  config := { p.config with enable := true },
  framer := { p.framer with
    state := .search, verified := 0, next := none, recent := [], overhead := [], erroredRun := 0,
    allOnesRun := 0, period := ⟨none, 0, true⟩ },
  defects := { p.defects with off := false, unframed := true },
  slip := { p.slip with waiting := [List.replicate 36 0xFF], writing := none, slot := [] } }

theorem enableUp_followLos (p : Port) : p.enableUp = (enabling p).followLos := rfl

/-- A sane disabled port goes into service: SIG_LOST by LOS_n, UNFRAMED, and the buffer recentred (R17, R34). -/
theorem enableUp_eq {p : Port} (hloop : p.maint.loop ≠ .inwardHost) (hais : p.defects.aisIn = false)
    (hexcess : p.defects.slipExcess = false) :
    p.enableUp = { enabling p with defects := ⟨false, p.los, false, true, false⟩ } := by
  have hdefects : (enabling p).defects = ⟨false, p.defects.sigLost, false, true, false⟩ := by
    simp [enabling, hais, hexcess]
  rw [enableUp_followLos]
  cases hlos : p.los with
  | false =>
    rw [followLos_high (p := enabling p) rfl hloop hlos, hdefects]
  | true =>
    rw [followLos_low (p := enabling p) rfl hloop hlos, Port.loseSignal, toSearch_unaligned (by rfl), hdefects]
    rfl

/-- An enabled port goes out of service (R18, R35, R160). -/
theorem disableDown_eq (p : Port) : p.disableDown = { p with
    config := { p.config with enable := false },
    defects := ⟨true, false, false, false, false⟩,
    framer := { p.framer with
      state := .search, verified := 0, next := none, recent := [], overhead := [], erroredRun := 0,
      allOnesRun := 0, period := if p.aligned then ⟨none, 0, true⟩ else p.framer.period },
    slip := { p.slip with waiting := [], writing := none, slot := [], periodSlips := 0 },
    maint := p.maint.ended } := by
  have hsearch := toSearch_eq { p with config := { p.config with enable := false } } none []
  have haligned : ({ p with config := { p.config with enable := false } } : Port).aligned = p.aligned := rfl
  rw [haligned] at hsearch
  rw [Port.disableDown, hsearch]
  cases p.aligned <;> rfl

section
variable {p : Port} {q : PortSetReq} {b : PortSetBits} {cfg : PortConfig}
  (hcfg : cfg = { p.config.store q b with enable := b.enable.getD p.config.enable })
include hcfg

/-- With the enable in force the fields alone are stored. -/
theorem set_stands (h : cfg.enable = p.config.enable) : p.set q b = { p with config := cfg } := by
  have henable : b.enable.getD p.config.enable = p.config.enable := by
    rw [hcfg] at h
    exact h
  have hstore : cfg = p.config.store q b := by
    rw [hcfg, henable]
    rfl
  rw [Port.set, setEnable_eq]
  exact (if_pos henable).trans (by rw [hstore])

theorem set_up (hup : cfg.enable = true) (h : p.config.enable = false) :
    p.set q b = ({ p with config := p.config.store q b } : Port).enableUp := by
  have henable : b.enable.getD p.config.enable = true := by
    rw [hcfg] at hup
    exact hup
  rw [Port.set, setEnable_eq]
  exact (if_neg fun hsame => Bool.false_ne_true (h.symm.trans (hsame.symm.trans henable))).trans (if_pos henable)

theorem set_down (hdown : cfg.enable = false) (h : p.config.enable = true) :
    p.set q b = ({ p with config := p.config.store q b } : Port).disableDown := by
  have henable : b.enable.getD p.config.enable = false := by
    rw [hcfg] at hdown
    exact hdown
  rw [Port.set, setEnable_eq]
  exact (if_neg fun hsame => Bool.false_ne_true (henable.symm.trans (hsame.trans h))).trans
    (if_neg (ne_true_of_eq_false henable))

/-- Whatever the enable does, the configuration is stored, and LOS_n and the transmit frame stand. -/
theorem set_keeps : (p.set q b).config = cfg ∧ (p.set q b).los = p.los ∧
    (p.set q b).txSymbol = p.txSymbol ∧ (p.set q b).txPayload = p.txPayload := by
  by_cases hsame : cfg.enable = p.config.enable
  · rw [set_stands hcfg hsame]
    exact ⟨rfl, rfl, rfl, rfl⟩
  cases he : cfg.enable with
  | true =>
    have hold : p.config.enable = false := eq_false_of_ne_true fun h => hsame (he.trans h.symm)
    obtain ⟨hconfig, hlos, hsymbol, hpayload⟩ :=
      followLos_keeps (enabling { p with config := p.config.store q b })
    rw [set_up hcfg he hold, enableUp_followLos]
    refine ⟨hconfig.trans ?_, hlos, hsymbol, hpayload⟩
    rw [hcfg] at he ⊢
    exact congrArg (fun e => ({ p.config.store q b with enable := e } : PortConfig)) he.symm
  | false =>
    have hold : p.config.enable = true := eq_true_of_ne_false fun h => hsame (he.trans h.symm)
    rw [set_down hcfg he hold, disableDown_eq]
    refine ⟨?_, rfl, rfl, rfl⟩
    rw [hcfg] at he ⊢
    exact congrArg (fun e => ({ p.config.store q b with enable := e } : PortConfig)) he.symm

end

/-- A monitor that follows a port is in FREEWHEEL once the port has left ALIGNED (R25). -/
theorem freewheel_of_unaligned {s : State} (h : s.RefInv) {n : PortNo} {q : Port}
    (hsel : s.ref.selection = .port n) (hq : q.aligned = false) :
    (s.changePort n q).ref.state = .freewheel := by
  rw [ref_changePort]
  split
  case isTrue => rfl
  case isFalse hno =>
    cases hs : s.ref.state with
    | freewheel => rfl
    | refOk => exact absurd ⟨h.followed n hsel (.inl hs), hq, hsel⟩ hno

/-- Settles O46: the parameter checks, and the three changes of enable. -/
theorem portSetStoresFieldsThenEnables : Obligations.PortSetStoresFieldsThenEnables := by
  intro q s x hx
  rw [exec_portSet hx]
  refine ⟨fun h => ?_, fun n cfg hn hany hbits hthreshold hcfg => ?_⟩
  · rw [doPortSet_badParam (h.imp_right portSetBits_none)]
  obtain ⟨b, hb, hstore⟩ : ∃ b, portSetBits q = some b ∧ cfg = { s.ports[n].config.store q b with
      enable := b.enable.getD s.ports[n].config.enable } :=
    ⟨_, portSetBits_some hany hbits hthreshold, hcfg⟩
  rw [doPortSet_ok hn hb]
  obtain ⟨hconfig, hlos, hsymbol, hpayload⟩ := set_keeps hstore
  refine ⟨_, rfl, ?_⟩
  rw [changePort_same]
  refine ⟨?_, fun m hm => changePort_other s _ hm, hconfig, hlos, hsymbol, hpayload, fun hsame => ?_,
    fun hup hold hline hmaint => ?_, fun hdown hold => ?_⟩
  · rw [ports_changePort]
    exact changePort_frame s n _
  · rw [set_stands hstore hsame]
    exact changePort_quiet s n _ rfl rfl rfl rfl
  · obtain ⟨-, hais, hexcess⟩ := hline.disabled hold
    have hloop : s.ports[n].maint.loop ≠ .inwardHost := by
      rw [(hmaint.disabled hold).1]
      decide
    rw [set_up hstore hup hold, enableUp_eq (p := { s.ports[n] with config := s.ports[n].config.store q b }) hloop hais
      hexcess]
    refine ⟨rfl, rfl, rfl, rfl, ?_⟩
    rw [ref_changePort, if_neg fun h => Bool.false_ne_true ((not_aligned_of_disabled hline hold).symm.trans h.1)]
  · rw [set_down hstore hdown hold, disableDown_eq]
    refine ⟨rfl, rfl, rfl, rfl, rfl, rfl, rfl, rfl, rfl, rfl, rfl, rfl, fun hsel hinv => ?_, fun hsel => ?_⟩
    · exact freewheel_of_unaligned hinv hsel rfl
    · rw [ref_changePort, if_neg fun h => hsel h.2.2]

end Sys2Proof.Proofs
end

section
/-! PROOFS. DEVICE_RESET (O50): what its sweep over the ports posts, and what becomes of the monitor. -/

namespace Sys2Proof.Proofs

open Sys2Proof Sys2Proof.Machine

/-- A posting to a subject without an entry makes one at the tail (R163). -/
theorem postTo_absent {l : List Entry} {x : Subject} (h : ∀ e ∈ l, e.subject ≠ x) (k : Change) :
    postTo l x k = l ++ [⟨x, Summary.empty.add k⟩] := by
  induction l with
  | nil => rfl
  | cons e l ih =>
    rw [postTo, if_neg (h e (List.mem_cons_self ..)), ih fun a ha => h a (List.mem_cons_of_mem _ ha)]
    rfl

/-! ### The ports -/

/-- What every port has after it. -/
structure Reset (p q : Port) : Prop where
  config : q.config = p.config
  los : q.los = p.los
  symbol : q.txSymbol = p.txSymbol
  payload : q.txPayload = p.txPayload
  errored : q.framer.erroredCount = 0
  slips : q.slip.slips = 0
  loop : q.maint.loop = .off
  timer : q.maint.loopTimer = 0
  burst : q.maint.burstLeft = 0
  run : q.maint.runSym = none
  length : q.maint.runLength = 0
  recognized : q.maint.recognized = false
  absence : q.maint.absence = 0
  far : q.maint.farAlarm = false
  last : q.maint.lastCode = none

theorem reset_deviceReset (p : Port) : Reset p p.deviceReset := by
  constructor <;> rfl

theorem reset_followLos {p q : Port} (h : Reset p q) : Reset p q.followLos := by
  obtain ⟨config, los, symbol, payload, errored, slips, loop, timer, burst, run, length, recognized, absence, far,
    last⟩ := h
  obtain ⟨heq, -⟩ | ⟨-, -, ⟨-, heq⟩ | ⟨-, heq⟩⟩ := followLos_cases q
  · rw [heq]
    exact ⟨config, los, symbol, payload, errored, slips, loop, timer, burst, run, length, recognized, absence, far, last⟩
  · rw [heq]
    exact ⟨config, los, symbol, payload, errored, slips, loop, timer, burst, run, length, recognized, absence, far, last⟩
  · rw [heq, Port.loseSignal, toSearch_eq]
    constructor
    case slips => dsimp only; split <;> exact slips
    case loop => dsimp only; split <;> exact loop
    case timer => dsimp only; split <;> exact timer
    case burst => dsimp only; split <;> exact burst
    case run => dsimp only; split; exacts [rfl, run]
    case length => dsimp only; split; exacts [rfl, length]
    case recognized => dsimp only; split; exacts [rfl, recognized]
    case absence => dsimp only; split; exacts [rfl, absence]
    case far => dsimp only; split; exacts [rfl, far]
    case last => dsimp only; split <;> exact last
    all_goals assumption

theorem reset_port (s : State) (n : PortNo) : Reset s.ports[n] (resetPorts s).ports[n] := by
  rw [ports_resetPorts]
  split
  · exact reset_followLos (reset_deviceReset _)
  · exact reset_deviceReset _

/-! ### The list -/

/-- DEVICE_RESET moves the port's source defect. -/
def Reposts (p : Port) : Prop :=
  p.maint.loop = .inwardHost ∧ p.deviceReset.sourceDefect ≠ p.deviceReset.followLos.sourceDefect

/-- The list's entry for a port whose source defect alone has moved. -/
def defectEntry (n : PortNo) : Entry := ⟨.port n, ⟨false, false, false, true, false, false, false⟩⟩

/-- One port's step of the sweep posts its source defect, where that moves (R22). -/
theorem attention_releaseInward {s u : State} {n : PortNo} (hu : u.ports[n] = s.ports[n].deviceReset) :
    (Reposts s.ports[n] → (s.releaseInward u n).attention = postTo u.attention (.port n) .portDefect) ∧
      (¬ Reposts s.ports[n] → (s.releaseInward u n).attention = u.attention) := by
  have hfar : u.ports[n].maint.farAlarm = u.ports[n].followLos.maint.farAlarm := by
    rw [hu, (reset_followLos (reset_deviceReset s.ports[n])).far]
    rfl
  have hloop : u.ports[n].maint.loop = u.ports[n].followLos.maint.loop := by
    rw [hu, (reset_followLos (reset_deviceReset s.ports[n])).loop]
    rfl
  have hlist : (u.changePort n u.ports[n].followLos).attention =
      (u.postIf (u.ports[n].sourceDefect != u.ports[n].followLos.sourceDefect) (.port n) .portDefect).attention := by
    rw [attention_changePort, hfar, hloop, bne_self_eq_false, bne_self_eq_false]
    rfl
  refine ⟨fun ⟨hl, hne⟩ => ?_, fun hno => ?_⟩
  · rw [State.releaseInward, if_pos hl, hlist, hu, attention_postIf, if_pos (bne_iff_ne.mpr hne)]
  · rw [State.releaseInward]
    split
    case isFalse => rfl
    case isTrue hl =>
      have hsame : u.ports[n].sourceDefect = u.ports[n].followLos.sourceDefect := by
        rw [hu]
        exact not_not.mp fun hne => hno ⟨hl, hne⟩
      rw [hlist, hsame, bne_self_eq_false, attention_postIf]
      rfl

/-- The list after some ports of the sweep: one entry for each port whose source defect moves, in their
order (R186). -/
theorem attention_sweep {s : State} {l : List PortNo} (hl : l.Nodup) {u : State}
    (hu : ∀ n ∈ l, u.ports[n] = s.ports[n].deviceReset) (habsent : ∀ n ∈ l, ∀ e ∈ u.attention, e.subject ≠ .port n) :
    ∃ moved : List PortNo, moved.Sublist l ∧ (∀ n, n ∈ moved ↔ n ∈ l ∧ Reposts s.ports[n]) ∧
      (l.foldl (fun t n => s.releaseInward t n) u).attention = u.attention ++ moved.map defectEntry := by
  induction l generalizing u with
  | nil => exact ⟨[], .slnil, by simp, by simp⟩
  | cons m l ih =>
    obtain ⟨hm, hl⟩ := List.nodup_cons.mp hl
    have hstep := attention_releaseInward (hu m (List.mem_cons_self ..))
    have hports : ∀ n ∈ l, (s.releaseInward u m).ports[n] = s.ports[n].deviceReset := by
      intro n hn
      rw [ports_releaseInward, if_neg fun h : n = m => hm (h ▸ hn)]
      exact hu n (List.mem_cons_of_mem _ hn)
    by_cases hmoves : Reposts s.ports[m]
    · have hlist : (s.releaseInward u m).attention = u.attention ++ [defectEntry m] := by
        rw [hstep.1 hmoves, postTo_absent (habsent m (List.mem_cons_self ..))]
        rfl
      obtain ⟨moved, hsub, hmem, heq⟩ := ih hl hports fun n hn e he => by
        rw [hlist, List.mem_append, List.mem_singleton] at he
        obtain he | rfl := he
        · exact habsent n (List.mem_cons_of_mem _ hn) e he
        · intro h
          obtain rfl : m = n := Subject.port.inj h
          exact hm hn
      refine ⟨m :: moved, hsub.cons_cons m, fun n => ?_, ?_⟩
      · rw [List.mem_cons, hmem, List.mem_cons]
        constructor
        · rintro (rfl | ⟨hn, h⟩)
          · exact ⟨.inl rfl, hmoves⟩
          · exact ⟨.inr hn, h⟩
        · rintro ⟨rfl | hn, h⟩
          · exact .inl rfl
          · exact .inr ⟨hn, h⟩
      · rw [List.foldl_cons, heq, hlist, List.append_assoc]
        rfl
    · have hlist := hstep.2 hmoves
      obtain ⟨moved, hsub, hmem, heq⟩ := ih hl hports fun n hn e he =>
        habsent n (List.mem_cons_of_mem _ hn) e (hlist ▸ he)
      refine ⟨moved, hsub.cons m, fun n => ?_, ?_⟩
      · rw [hmem, List.mem_cons]
        constructor
        · exact fun ⟨hn, h⟩ => ⟨.inr hn, h⟩
        · rintro ⟨rfl | hn, h⟩
          · exact absurd h hmoves
          · exact ⟨hn, h⟩
      · rw [List.foldl_cons, heq, hlist]

/-- The list after DEVICE_RESET. -/
theorem attention_reset (s : State) : ∃ moved : List PortNo, moved.Pairwise (· < ·) ∧
    (∀ n, n ∈ moved ↔ Reposts s.ports[n]) ∧ (resetPorts s).attention = moved.map defectEntry := by
  obtain ⟨moved, hsub, hmem, heq⟩ := attention_sweep (s := s) (u := s.emptied) (List.nodup_finRange 16)
    (fun n _ => mapPorts_get _ s.ports n) (by simp [State.emptied])
  exact ⟨moved, (List.sortedLT_finRange 16).pairwise.sublist hsub, fun n => by simp [hmem], heq⟩

/-! ### The monitor -/

theorem aligned_followLos {p : Port} (h : p.aligned = false) : p.followLos.aligned = false := by
  obtain ⟨heq, -⟩ | ⟨-, -, ⟨-, heq⟩ | ⟨-, heq⟩⟩ := followLos_cases p
  · rwa [heq]
  · rw [heq]
    exact h
  · rw [heq, Port.loseSignal, toSearch_aligned]

/-- The selected port has left ALIGNED between two states. -/
def Lost (s u : State) : Prop :=
  ∃ n, s.ref.selection = .port n ∧ s.ports[n].aligned = true ∧ u.ports[n].aligned = false

/-- The monitor in the course of a sweep: lost once the selected port has left ALIGNED, else as it was (R25). -/
structure MonitorFollows (s u : State) : Prop where
  lost : Lost s u → u.ref = s.ref.lose
  stands : ¬ Lost s u → u.ref = s.ref
  unaligned : ∀ n : PortNo, s.ports[n].aligned = false → u.ports[n].aligned = false

theorem MonitorFollows.selection {s u : State} (h : MonitorFollows s u) :
    u.ref.selection = s.ref.selection := by
  by_cases hl : Lost s u
  · rw [h.lost hl]
    rfl
  · rw [h.stands hl]

theorem monitorFollows_changePort {s u : State} (h : MonitorFollows s u) (n : PortNo) {q : Port}
    (hq : u.ports[n].aligned = false → q.aligned = false) : MonitorFollows s (u.changePort n q) := by
  have hunaligned : ∀ k : PortNo, s.ports[k].aligned = false → (u.changePort n q).ports[k].aligned = false := by
    intro k hk
    rw [changePort_get]
    split
    case isTrue heq => exact hq (heq ▸ h.unaligned k hk)
    case isFalse => exact h.unaligned k hk
  by_cases hleaves : u.ports[n].aligned = true ∧ q.aligned = false ∧ u.ref.selection = .port n
  · obtain ⟨ha, hleft, hsel⟩ := hleaves
    have href : (u.changePort n q).ref = u.ref.lose := by rw [ref_changePort, if_pos ⟨ha, hleft, hsel⟩]
    rw [h.selection] at hsel
    have hnot : ¬ Lost s u := by
      rintro ⟨k, hk, -, hno⟩
      obtain rfl : n = k := RefSelection.port.inj (hsel.symm.trans hk)
      exact Bool.false_ne_true (hno.symm.trans ha)
    have hs : s.ports[n].aligned = true :=
      eq_true_of_ne_false fun hs => Bool.false_ne_true ((h.unaligned n hs).symm.trans ha)
    have hlost : Lost s (u.changePort n q) := ⟨n, hsel, hs, by rw [changePort_same]; exact hleft⟩
    exact ⟨fun _ => by rw [href, h.stands hnot], fun hno => absurd hlost hno, hunaligned⟩
  · have href : (u.changePort n q).ref = u.ref := by rw [ref_changePort, if_neg hleaves]
    have hiff : Lost s (u.changePort n q) ↔ Lost s u := by
      refine exists_congr fun k => and_congr_right fun hk => and_congr_right fun _ => ?_
      rw [changePort_get]
      split
      case isFalse => rfl
      case isTrue heq =>
        subst heq
        refine ⟨fun hleft => eq_false_of_ne_true fun ha => hleaves ⟨ha, hleft, ?_⟩, hq⟩
        rw [h.selection, hk]
    exact ⟨fun hl => href.trans (h.lost (hiff.mp hl)), fun hl => href.trans (h.stands (hl ∘ hiff.mpr)), hunaligned⟩

theorem monitorFollows_reset (s : State) : MonitorFollows s (resetPorts s) := by
  have hports : ∀ n : PortNo, s.emptied.ports[n].aligned = s.ports[n].aligned := fun n => by
    have hport : s.emptied.ports[n] = s.ports[n].deviceReset := mapPorts_get _ s.ports n
    rw [hport]
    rfl
  have hstart : MonitorFollows s s.emptied := by
    have hnot : ¬ Lost s s.emptied := by
      rintro ⟨n, -, ha, hno⟩
      rw [hports, ha] at hno
      cases hno
    exact ⟨fun hl => absurd hl hnot, fun _ => rfl, fun n hn => (hports n).trans hn⟩
  refine foldl_preserves (P := MonitorFollows s) (fun u n hu => ?_) (List.finRange 16) hstart
  unfold State.releaseInward
  split
  · exact monitorFollows_changePort hu n aligned_followLos
  · exact hu

/-! ### The rest of the state -/

/-- Everything but the ports, the tables, the list and the monitor stands. -/
theorem resetPorts_frame (s : State) : resetPorts s = { s with
    records := [], slotMap := [], selections := [], contexts := [], attention := (resetPorts s).attention,
    ports := (resetPorts s).ports, ref := (resetPorts s).ref } := by
  refine foldl_preserves (P := fun u => u = { s with
    records := [], slotMap := [], selections := [], contexts := [], attention := u.attention,
    ports := u.ports, ref := u.ref }) (fun u n hu => ?_) (List.finRange 16) (s := s.emptied) rfl
  unfold State.releaseInward
  split
  case isFalse => exact hu
  case isTrue =>
    have hframe := changePort_frame u n u.ports[n].followLos
    rw [← ports_changePort] at hframe
    generalize u.changePort n u.ports[n].followLos = v at hframe ⊢
    rw [hu] at hframe
    exact hframe

theorem abort_waiting {x : MPort} (h : x.txn = .waiting) : x.abort = { x with
    txn := .answered, request := [],
    response := [x.request.getD 0 0, x.request.getD 1 0, 0x0B, 0] } := if_pos h

theorem abort_stands {x : MPort} (h : x.txn ≠ .waiting) : x.abort = x := if_neg h

theorem other_of_ne {p q : MPortId} (h : p ≠ q) : p = otherPort q := by
  cases p <;> cases q <;> simp_all [otherPort]

theorem otherPort_ne (p : MPortId) : p ≠ otherPort p := by
  cases p <;> simp [otherPort]

theorem exec_deviceReset {s : State} {x : Execution} (hx : s.handed .deviceReset x) :
    exec .deviceReset s = .next (((resetPorts s).setMport (otherPort x.port)
      ((resetPorts s).mport (otherPort x.port)).abort).answering x ⟨.ok, []⟩) := by
  have hexec : exec .deviceReset s = .next ((doDeviceReset s).2.answering x (doDeviceReset s).1) :=
    carryOut_handed hx
  have hfirst : (doDeviceReset s).1 = ⟨.ok, []⟩ := by
    unfold doDeviceReset
    split <;> rfl
  rw [hexec, hfirst, doDeviceReset_eq, hx.1]

theorem setMport_frame (s : State) (p : MPortId) (y : MPort) : s.setMport p y =
    { s with portM := (s.setMport p y).portM, portS := (s.setMport p y).portS } := by
  cases p <;> rfl

/-- A port that was in INWARD_HOST, with LOS_n followed again (R22). -/
theorem reset_inward {p : Port} (he : p.config.enable = true) :
    (p.los = true → p.deviceReset.followLos.framer.state = .search ∧
      p.deviceReset.followLos.defects = { p.defects with
        sigLost := true, unframed := p.defects.unframed || p.aligned }) ∧
    (p.los = false → p.deviceReset.followLos =
      { p.deviceReset with defects := { p.defects with sigLost := false } }) := by
  have hloop : p.deviceReset.maint.loop ≠ .inwardHost := LoopState.noConfusion
  refine ⟨fun hlos => ?_, fun hlos => followLos_high (p := p.deviceReset) he hloop hlos⟩
  rw [followLos_low (p := p.deviceReset) he hloop hlos, Port.loseSignal, toSearch_eq]
  refine ⟨rfl, ?_⟩
  have henable : p.deviceReset.config.enable = true := he
  dsimp only
  rw [henable, Bool.and_true]
  rfl

/-- Settles O50. -/
theorem deviceResetEmptiesTables : Obligations.DeviceResetEmptiesTables := by
  intro s x hx
  refine ⟨_, exec_deviceReset hx, ?_⟩
  have hframe := resetPorts_frame s
  have hreset := reset_port s
  have hport := ports_resetPorts s
  have hmonitor := monitorFollows_reset s
  obtain ⟨moved, hsorted, hmoved, hlist⟩ := attention_reset s
  generalize resetPorts s = u at *
  have hother : (u.setMport (otherPort x.port) (u.mport (otherPort x.port)).abort).mport (otherPort x.port) =
      (s.mport (otherPort x.port)).abort := by
    rw [mport_setMport_same, hframe]
    cases x.port <;> rfl
  have hown : (u.setMport (otherPort x.port) (u.mport (otherPort x.port)).abort).mport x.port =
      s.mport x.port := by
    rw [mport_setMport_ne _ _ (otherPort_ne x.port), hframe]
    cases x.port <;> rfl
  have ht := setMport_frame u (otherPort x.port) (u.mport (otherPort x.port)).abort
  generalize u.setMport (otherPort x.port) (u.mport (otherPort x.port)).abort = t at hother hown ht ⊢
  have hports : t.ports = u.ports := by rw [ht]
  have href : t.ref = u.ref := by rw [ht]
  have hattention : t.attention = moved.map defectEntry := by rw [ht, ← hlist]
  rw [hframe] at ht
  have hempty : t.records = [] ∧ t.slotMap = [] ∧ t.selections = [] ∧ t.contexts = [] := by
    rw [ht]
    exact ⟨rfl, rfl, rfl, rfl⟩
  obtain ⟨hrecords, hslots, hselections, hcontexts⟩ := hempty
  refine ⟨fun id => ?_, fun y => ?_, fun n slot => ?_, fun k => ?_, ?_, fun n => ?_, fun e he => ?_, ?_, hown, fun p hp => ?_, ?_,
    fun hstands => ?_, fun n hsel ha hleft => ?_, ?_⟩
  · rw [hrecords]
    rfl
  · rw [hslots]
    rfl
  · rw [State.selection, hselections]
    rfl
  · rw [hcontexts]
    rfl
  · rw [State.pendingSet, hrecords]
    rfl
  · obtain ⟨config, los, symbol, payload, errored, slips, loop, timer, burst, run, length, recognized, absence, far,
      last⟩ := hreset n
    have hportn := hport n
    rw [hports]
    refine ⟨config, los, symbol, payload, errored, slips, loop, timer, burst, run, length, recognized, absence, far,
      last, fun hl => ?_, fun hl he => ⟨fun hlos => ?_, fun hlos => ?_, fun hne => ?_⟩⟩
    · rw [hportn, if_neg hl]
      rfl
    · rw [hportn, if_pos hl]
      exact (reset_inward he).1 hlos
    · rw [hportn, if_pos hl, (reset_inward he).2 hlos]
      rfl
    · rw [hportn, if_pos hl] at hne
      rw [hattention]
      exact ⟨defectEntry n, List.mem_map_of_mem ((hmoved n).mpr ⟨hl, hne.symm⟩), rfl, rfl⟩
  · rw [hattention] at he
    obtain ⟨n, hn, rfl⟩ := List.mem_map.mp he
    exact ⟨n, ((hmoved n).mp hn).1, rfl⟩
  · rw [hattention, List.pairwise_map]
    refine hsorted.imp fun hlt n m hn hm => ?_
    rwa [← Subject.port.inj hn, ← Subject.port.inj hm]
  · rw [other_of_ne hp, hother]
    exact ⟨abort_stands, abort_waiting⟩
  · rw [href]
    exact hmonitor.selection
  · rw [href]
    refine hmonitor.stands ?_
    rintro ⟨n, hsel, ha, hleft⟩
    have hsame := hstands n hsel
    rw [hports, ha, hleft] at hsame
    cases hsame
  · rw [href]
    refine hmonitor.lost ⟨n, hsel, ha, ?_⟩
    rwa [hports] at hleft
  · rw [hrecords, hslots, hselections, hcontexts]
    rw [← hlist] at hattention
    rw [hattention, hports, href]
    exact ht

end Sys2Proof.Proofs
end

section
/-! PROOFS. The requests that name a record: their checks (O30), MODIFY (O33, O34), and RETIRE, HOLD and RELEASE
(O35). -/

namespace Sys2Proof.Proofs

open Sys2Proof Sys2Proof.Machine

/-! ### The checks of a record request (R49) -/

/-- A request's id reads back from the table's key. -/
theorem idBytes_toNat (id : Half) : idBytes id.toNat = halfBytes id := by
  rw [idBytes, BitVec.ofNat_toNat, BitVec.setWidth_eq]

section
variable {c : Instr} {id : Half} {expected : Byte} {act : Nat → Record → State → Answer × State} {s : State}
  {x : Execution} (hx : s.handed c x) (hexec : exec c s = carryOut c (onRevision id expected act) s)
include hx hexec

theorem exec_record_range (h : 512 ≤ id.toNat) : exec c s = .next (s.answering x ⟨.badParam, []⟩) := by
  rw [hexec, carryOut_handed hx, onRevision, onRecord_range h, Answer.bare]

theorem exec_record_none (h : id.toNat < 512) (hr : s.records.get id.toNat = none) :
    exec c s = .next (s.answering x ⟨.notFound, []⟩) := by
  rw [hexec, carryOut_handed hx, onRevision, onRecord_none h hr, Answer.bare]

variable {r : Record} (h : id.toNat < 512) (hr : s.records.get id.toNat = some r)
include h hr

theorem exec_record_stale (hrev : r.revision ≠ expected) :
    exec c s = .next (s.answering x ⟨.stale, [r.revision, r.state.number]⟩) := by
  rw [hexec, carryOut_handed hx, onRevision_some h hr, if_neg hrev, Answer.recordRefusal]

/-- Past the checks the request's own step is taken. -/
theorem exec_record_step (hrev : r.revision = expected) :
    exec c s = .next ((act id.toNat r s).2.answering x (act id.toNat r s).1) := by
  rw [hexec, carryOut_handed hx, onRevision_some h hr, if_pos hrev]

end

theorem wrongState_eq (r : Record) (s : State) :
    wrongState r s = (⟨.wrongState, [r.revision, r.state.number]⟩, s) := rfl

/-- Each request that changes a record refuses a RETIRING one. -/
theorem refuses_retiring {c : Instr} {id : Half} {expected : Byte} (s : State)
    (h : c = .retire id expected ∨ c = .hold id expected ∨ c = .release id expected ∨
      c = .unprotect id expected ∨ (∃ b, c = .switch id expected b) ∨
      (∃ q, c = .modify q ∧ q.id = id ∧ q.expected = expected) ∨
      (∃ q, c = .protect q ∧ q.id = id ∧ q.expected = expected)) :
    ∃ act, exec c s = carryOut c (onRevision id expected act) s ∧
      ∀ k (r : Record), r.state = .retiring → act k r s = wrongState r s := by
  obtain rfl | rfl | rfl | rfl | ⟨b, rfl⟩ | ⟨q, rfl, rfl, rfl⟩ | ⟨q, rfl, rfl, rfl⟩ := h
  · exact ⟨retireRecord, rfl, fun k r hr => by rw [retireRecord, hr]⟩
  · exact ⟨holdRecord, rfl, fun k r hr => if_neg (by rw [hr]; decide)⟩
  · exact ⟨releaseRecord, rfl, fun k r hr => if_neg (by rw [hr]; decide)⟩
  · exact ⟨unprotectRecord, rfl, fun k r hr => if_pos hr⟩
  · exact ⟨switchRecord b, rfl, fun k r hr => if_pos hr⟩
  · exact ⟨modifyRecord q, rfl, fun k r hr => if_pos hr⟩
  · exact ⟨protectRecord q, rfl, fun k r hr => if_pos (.inl hr)⟩

/-- Settles O30. -/
theorem recordRequestsAreCheckedInOrder : Obligations.RecordRequestsAreCheckedInOrder := by
  intro c id expected s x hx hc
  obtain ⟨act, hexec, hretiring⟩ := refuses_retiring s hc
  refine ⟨exec_record_range hx hexec, exec_record_none hx hexec, fun r h hr =>
    ⟨exec_record_stale hx hexec h hr, fun hrev hstate => ?_⟩⟩
  rw [exec_record_step hx hexec h hr hrev, hretiring _ r hstate, wrongState_eq, hstate]
  rfl

/-! ### MODIFY (R72 to R76) -/

section
variable {width : Nat} {e : RawEnd}

theorem toEnd_none (h : 16 ≤ e.port.toNat ∨ e.first.toNat = 0 ∨ 36 < e.first.toNat + width) :
    toEnd width e = none := by
  unfold toEnd
  split
  case h_2 => rfl
  case h_1 p hp =>
    have hport := portNo_some.mp hp
    have hlt := p.isLt
    refine if_neg ?_
    rw [Config.lastSlot]
    omega

theorem toEnd_some {n : PortNo} (hn : n.val = e.port.toNat) (hfirst : 1 ≤ e.first.toNat)
    (hlast : e.first.toNat + width ≤ 36) : toEnd width e = some ⟨n, e.first.toNat⟩ := by
  unfold toEnd
  rw [portNo_some.mpr hn]
  exact if_pos ⟨hfirst, by rw [Config.lastSlot]; omega⟩

/-- The triples of an end, one slot after another. -/
theorem end_triples (width : Nat) (dir : Dir) (x : End) :
    x.triples width dir = (List.range width).map fun k => ⟨x.port, x.first + k, dir⟩ := by
  rw [End.triples, End.slots, List.map_map]
  rfl

end

theorem leaveAt_eq_set {l : List Dest} {i : Nat} {d : Dest} (h : l[i]? = some d) :
    leaveAt l i = l.set i { d with state := .leaving } := by
  induction l generalizing i with
  | nil => cases h
  | cons a l ih =>
    cases i with
    | zero =>
      obtain rfl : a = d := Option.some.inj h
      rfl
    | succ i =>
      rw [leaveAt, ih h, List.set_cons_succ]

theorem canAdd_none {r : Record} {e : RawEnd}
    (h : 16 ≤ e.port.toNat ∨ e.first.toNat = 0 ∨ 36 < e.first.toNat + r.width ∨ 4 ≤ r.dests.length) :
    r.canAdd e = none := by
  unfold Record.canAdd
  by_cases hend : 16 ≤ e.port.toNat ∨ e.first.toNat = 0 ∨ 36 < e.first.toNat + r.width
  · rw [toEnd_none hend]
  · split
    case h_2 => rfl
    case h_1 => exact if_neg fun hc => by omega

theorem canAdd_eq {r : Record} {e : RawEnd} {x : End} (hx : toEnd r.width e = some x) (hlen : r.dests.length < 4) :
    r.canAdd e = if ∀ t ∈ x.triples r.width .tx, t ∉ r.triples then some x else none := by
  unfold Record.canAdd
  rw [hx]
  exact if_congr (and_iff_right hlen) rfl rfl

theorem canRemove_iff {r : Record} {i : Nat} : r.canRemove i = true ↔ ∃ d, r.dests[i]? = some d ∧
    d.state ≠ .leaving ∧ 2 ≤ ((r.dests.set i { d with state := .leaving }).filter
      fun d => d.state ≠ .leaving).length := by
  unfold Record.canRemove
  cases hd : r.dests[i]? with
  | none => simp
  | some d => simp [leaveAt_eq_set hd]

theorem exec_modify (q : ModifyReq) (s : State) :
    exec (.modify q) s = carryOut (.modify q) (onRevision q.id q.expected (modifyRecord q)) s := rfl

section
variable {q : ModifyReq} {r : Record} (hstate : r.state ≠ .retiring) (id : Nat) (s : State)
include hstate

theorem modifyRecord_stores (hadd : q.add = none) (hremove : q.remove = none) : modifyRecord q id r s =
    if q.label.isSome || q.code.isSome || q.holdOff.isSome || q.clearTime.isSome then
      (.recordOk id r.state.number (r.revision + 1), s.setRecord id (r.modified q))
    else (⟨.badParam, []⟩, s) := by
  unfold modifyRecord
  rw [if_neg hstate, hadd, hremove]
  rfl

theorem modifyRecord_add {e : RawEnd} (hadd : q.add = some e) (hremove : q.remove = none) :
    modifyRecord q id r s = if r.kind = .branch then modifyAdd q e id r s else (⟨.badParam, []⟩, s) := by
  unfold modifyRecord
  rw [if_neg hstate, hadd, hremove]
  rfl

theorem modifyRecord_remove {i : Byte} (hadd : q.add = none) (hremove : q.remove = some i) :
    modifyRecord q id r s = if r.kind = .branch then modifyRemove q i id r s else (⟨.badParam, []⟩, s) := by
  unfold modifyRecord
  rw [if_neg hstate, hadd, hremove]
  rfl

theorem modifyRecord_both {e : RawEnd} {i : Byte} (hadd : q.add = some e) (hremove : q.remove = some i) :
    modifyRecord q id r s = (⟨.badParam, []⟩, s) := by
  unfold modifyRecord
  rw [if_neg hstate, hadd, hremove]
  rfl

/-- A combination of parts that does not fit (R72). -/
theorem modifyRecord_badParam
    (h : (q.label = none ∧ q.code = none ∧ q.holdOff = none ∧ q.clearTime = none ∧ q.add = none ∧
        q.remove = none) ∨ (q.add.isSome = true ∧ q.remove.isSome = true) ∨
        ((q.add.isSome = true ∨ q.remove.isSome = true) ∧ r.kind ≠ .branch)) :
    modifyRecord q id r s = (⟨.badParam, []⟩, s) := by
  cases hadd : q.add with
  | none =>
    cases hremove : q.remove with
    | none =>
      rw [modifyRecord_stores hstate id s hadd hremove]
      obtain ⟨hlabel, hcode, hhold, hclear, -, -⟩ | ⟨hno, -⟩ | ⟨hno | hno, -⟩ := h
      · exact if_neg (by simp [hlabel, hcode, hhold, hclear])
      · rw [hadd] at hno
        cases hno
      · rw [hadd] at hno
        cases hno
      · rw [hremove] at hno
        cases hno
    | some i =>
      rw [modifyRecord_remove hstate id s hadd hremove]
      obtain ⟨-, -, -, -, -, hno⟩ | ⟨hno, -⟩ | ⟨-, hkind⟩ := h
      · rw [hremove] at hno
        cases hno
      · rw [hadd] at hno
        cases hno
      · exact if_neg hkind
  | some e =>
    cases hremove : q.remove with
    | none =>
      rw [modifyRecord_add hstate id s hadd hremove]
      obtain ⟨-, -, -, -, hno, -⟩ | ⟨-, hno⟩ | ⟨-, hkind⟩ := h
      · rw [hadd] at hno
        cases hno
      · rw [hremove] at hno
        cases hno
      · exact if_neg hkind
    | some i => exact modifyRecord_both hstate id s hadd hremove

end

/-- A record with the configuration parts of a MODIFY and its revision stepped, pending or not. -/
def reconfigured (q : ModifyReq) (r : Record) (pending : Bool) : Record :=
  { r with label := q.label.getD r.label, code := q.code.getD r.code,
           holdOff := q.holdOff.getD r.holdOff, clearTime := q.clearTime.getD r.clearTime,
           revision := r.revision + 1, pending := pending }

theorem modified_eq (q : ModifyReq) (r : Record) : r.modified q = reconfigured q r
    (r.pending || q.code.isSome || q.add.isSome || q.remove.isSome) := rfl

/-- Settles O33. -/
theorem modifyStoresItsParts : Obligations.ModifyStoresItsParts := by
  intro q s x r hx hid hr hrev hstate
  rw [exec_record_step hx (exec_modify q s) hid hr hrev]
  refine ⟨fun h => ?_, fun hadd hremove h => ?_⟩
  · rw [modifyRecord_badParam hstate _ s h]
  · have hany : (q.label.isSome || q.code.isSome || q.holdOff.isSome || q.clearTime.isSome) = true := by
      simp only [Bool.or_eq_true, or_assoc]
      exact h
    rw [modifyRecord_stores hstate _ s hadd hremove, if_pos hany, modified_eq, hadd, hremove, Option.isSome_none,
      Option.isSome_none, Bool.or_false, Bool.or_false, Answer.recordOk, idBytes_toNat]
    rfl

section
variable {q : ModifyReq} {e : RawEnd} {id : Nat} {r : Record} {s : State} {x : End}

theorem modifyAdd_badParam (h : r.canAdd e = none) : modifyAdd q e id r s = (⟨.badParam, []⟩, s) := by
  rw [modifyAdd, h]
  rfl

theorem modifyAdd_slotTaken {t : Triple} {holder : Nat} (h : r.canAdd e = some x)
    (hheld : firstHeld s.slotMap (x.triples r.width .tx) = some (t, holder)) :
    modifyAdd q e id r s = (.slotTaken t holder, s) := by
  rw [modifyAdd, h]
  dsimp only
  rw [hheld]

theorem modifyAdd_ok (h : r.canAdd e = some x) (hfree : firstHeld s.slotMap (x.triples r.width .tx) = none) :
    modifyAdd q e id r s = (.recordOk id r.state.number (r.revision + 1),
      (s.setRecord id { r.modified q with dests := r.dests ++ [⟨x, .joining⟩] }).reserve (x.triples r.width .tx) id) := by
  rw [modifyAdd, h]
  dsimp only
  rw [hfree]
  rfl

end

/-- Settles O34. -/
theorem modifyAddsAndRemovesDestinations : Obligations.ModifyAddsAndRemovesDestinations := by
  intro q s x r r' hx hid hr hrev hstate hkind hr'
  rw [exec_record_step hx (exec_modify q s) hid hr hrev]
  have hreconfigured : r' = reconfigured q r true := hr'
  refine ⟨fun e hadd hremove => ?_, fun i hadd hremove => ?_⟩
  · have hmodified : r.modified q = r' := by
      rw [modified_eq, hadd, hremove, Option.isSome_some, Option.isSome_none, Bool.or_true, Bool.or_false,
        hreconfigured]
    rw [modifyRecord_add hstate _ s hadd hremove, if_pos hkind]
    refine ⟨fun h => ?_, fun n ts hn hfirst hlast hlen hts => ?_⟩
    · rw [modifyAdd_badParam (canAdd_none h)]
    have htriples : (⟨n, e.first.toNat⟩ : End).triples r.width .tx = ts := by rw [end_triples, hts]
    have hcan := canAdd_eq (toEnd_some hn hfirst hlast) hlen
    rw [htriples] at hcan
    refine ⟨fun ⟨t, ht, hin⟩ => ?_, fun hnew => ⟨fun before t after holder hsplit hbefore hheld => ?_, fun hfree => ?_⟩⟩
    · rw [if_neg fun hnew => hnew t ht hin] at hcan
      rw [modifyAdd_badParam hcan]
    · rw [if_pos hnew] at hcan
      have hfirstHeld := firstHeld_split (after := after) hbefore hheld
      rw [← hsplit, ← htriples] at hfirstHeld
      rw [modifyAdd_slotTaken hcan hfirstHeld]
      rfl
    · rw [if_pos hnew] at hcan
      rw [← htriples] at hfree
      rw [modifyAdd_ok hcan (firstHeld_none.mpr hfree), hmodified, htriples, Answer.recordOk, idBytes_toNat]
      rfl
  · have hmodified : r.modified q = r' := by
      rw [modified_eq, hremove, Option.isSome_some, Bool.or_true, hreconfigured]
    rw [modifyRecord_remove hstate _ s hadd hremove, if_pos hkind, modifyRemove]
    refine ⟨fun d hd hin hstay => ?_, fun h => ?_⟩
    · rw [if_pos (canRemove_iff.mpr ⟨d, hd, hin, hstay⟩), leaveAt_eq_set hd, hmodified]
      dsimp only
      rw [Answer.recordOk, idBytes_toNat, hr']
      rfl
    · rw [if_neg]
      · rfl
      rw [canRemove_iff]
      rintro ⟨d, hd, hin, hstay⟩
      obtain hnone | ⟨d', hd', hno⟩ := h
      · rw [hd] at hnone
        cases hnone
      · obtain rfl : d = d' := Option.some.inj (hd.symm.trans hd')
        obtain hno | hno := hno
        · exact hin hno
        · exact Nat.not_le.mpr hno hstay

/-! ### RETIRE, HOLD and RELEASE (R77, R79, R80) -/

theorem exec_retire (id : Half) (expected : Byte) (s : State) : exec (.retire id expected) s =
    carryOut (.retire id expected) (onRevision id expected retireRecord) s := rfl

theorem exec_hold (id : Half) (expected : Byte) (s : State) : exec (.hold id expected) s =
    carryOut (.hold id expected) (onRevision id expected holdRecord) s := rfl

theorem exec_release (id : Half) (expected : Byte) (s : State) : exec (.release id expected) s =
    carryOut (.release id expected) (onRevision id expected releaseRecord) s := rfl

theorem freeRecord_eq (s : State) (id : Nat) (r : Record) : s.freeRecord id r = { s with
    records := s.records.del id, slotMap := s.slotMap.delValue id,
    contexts := (match r.context with | some k => s.contexts.del k | none => s.contexts) } := by
  unfold State.freeRecord State.unbind
  cases r.context <;> rfl

theorem retireRecord_staged {r : Record} (h : r.state = .staged) (id : Nat) (s : State) :
    retireRecord id r s = (.recordOk id 0 r.revision, s.freeRecord id r) := by
  rw [retireRecord, h]
  rfl

theorem retireRecord_retiring {r : Record} (h : r.state = .active ∨ r.state = .held) (id : Nat) (s : State) :
    retireRecord id r s = (.recordOk id 4 r.revision,
      s.setRecord id { r with state := .retiring, pending := true }) := by
  obtain h | h := h
  all_goals
    rw [retireRecord, h]
    rfl

/-- Settles O35. -/
theorem retireHoldAndReleaseMoveRecord : Obligations.RetireHoldAndReleaseMoveRecord := by
  intro id expected s x r hid hr hrev
  refine ⟨fun hx => ?_, fun hx => ?_, fun hx => ?_⟩
  · rw [exec_record_step hx (exec_retire id expected s) hid hr hrev]
    refine ⟨fun h => ?_, fun h => ?_⟩
    · have hfree := freeRecord_eq s id.toNat r
      rw [retireRecord_staged h, Answer.recordOk, idBytes_toNat]
      refine (congrArg (fun t : State => Host.Outcome.next (t.answering x ⟨.ok, halfBytes id ++ [0, r.revision]⟩))
        hfree).trans ?_
      cases r.context <;> rfl
    · rw [retireRecord_retiring h, Answer.recordOk, idBytes_toNat]
      rfl
  · rw [exec_record_step hx (exec_hold id expected s) hid hr hrev, holdRecord]
    refine ⟨fun h => ?_, fun h => ?_⟩
    · rw [if_pos h, Answer.recordOk, idBytes_toNat]
      rfl
    · rw [if_neg h, wrongState_eq]
  · rw [exec_record_step hx (exec_release id expected s) hid hr hrev, releaseRecord]
    refine ⟨fun h => ?_, fun h => ?_⟩
    · rw [if_pos h, Answer.recordOk, idBytes_toNat]
      rfl
    · rw [if_neg h, wrongState_eq]

end Sys2Proof.Proofs
end

section
/-! PROOFS. What CONNECT asks of its parameters (O31). -/

namespace Sys2Proof.Proofs

open Sys2Proof Sys2Proof.Machine

/-! ### Ends as a frame carries them -/

/-- An end of a width lies in the payload slots of a port (R40). -/
def Fits (width : Nat) (e : RawEnd) : Prop :=
  e.port.toNat ≤ 15 ∧ 1 ≤ e.first.toNat ∧ e.first.toNat + width - 1 ≤ 35

/-- The end that the bytes of one name. -/
def endOf (e : RawEnd) : End := ⟨Fin.ofNat 16 e.port.toNat, e.first.toNat⟩

theorem port_endOf {width : Nat} {e : RawEnd} (h : Fits width e) : (endOf e).port.val = e.port.toNat :=
  Nat.mod_eq_of_lt (Nat.lt_succ_of_le h.1)

theorem toEnd_eq_some {width : Nat} {e : RawEnd} {x : End} :
    toEnd width e = some x ↔ Fits width e ∧ x = endOf e := by
  unfold toEnd
  cases hp : portNo e.port with
  | none =>
    have hport := portNo_none.mp hp
    simp only [reduceCtorEq, false_iff, not_and]
    exact fun h => absurd h.1 (by omega)
  | some p =>
    have hval := portNo_some.mp hp
    have hlt := p.isLt
    have hport : p = Fin.ofNat 16 e.port.toNat := Fin.ext (by rw [Fin.val_ofNat, Nat.mod_eq_of_lt] <;> omega)
    dsimp only
    by_cases hr : 1 ≤ e.first.toNat ∧ e.first.toNat + width - 1 ≤ Config.lastSlot
    · rw [if_pos hr, Option.some.injEq, eq_comm, endOf, ← hport, and_iff_right ⟨by omega, hr⟩]
    · rw [if_neg hr]
      simp only [reduceCtorEq, false_iff, not_and]
      exact fun h => absurd h.2 hr

theorem toEnds_eq_some {width : Nat} {l : List RawEnd} {xs : List End} :
    toEnds width l = some xs ↔ (∀ e ∈ l, Fits width e) ∧ xs = l.map endOf := by
  induction l generalizing xs with
  | nil =>
    rw [toEnds, Option.some.injEq, eq_comm]
    simp
  | cons e l ih =>
    rw [List.forall_mem_cons, List.map_cons]
    unfold toEnds
    constructor
    · intro h
      split at h
      case h_1 x ys hx hys =>
        obtain ⟨hfit, rfl⟩ := toEnd_eq_some.mp hx
        obtain ⟨hfits, rfl⟩ := ih.mp hys
        exact ⟨⟨hfit, hfits⟩, (Option.some.inj h).symm⟩
      case h_2 => cases h
    · rintro ⟨⟨hfit, hfits⟩, rfl⟩
      rw [toEnd_eq_some.mpr ⟨hfit, rfl⟩, ih.mpr ⟨hfits, rfl⟩]

/-- Two ends that fit cover no common slot exactly when their triples of a direction are apart. -/
theorem disjoint_iff_apart {width : Nat} (hw : 1 ≤ width) {a b : RawEnd} (ha : Fits width a) (hb : Fits width b)
    (dir : Dir) : ((endOf a).triples width dir).Disjoint ((endOf b).triples width dir) ↔
      RawEnd.Apart width a b := by
  have hports : (endOf a).port = (endOf b).port ↔ a.port = b.port := by
    rw [Fin.ext_iff, port_endOf ha, port_endOf hb, BitVec.toNat_inj]
  constructor
  · intro hdisjoint
    by_contra hno
    simp only [not_or, not_not, Nat.not_le] at hno
    obtain ⟨hport, hab, hba⟩ := hno
    refine hdisjoint (a := ⟨(endOf a).port, max a.first.toNat b.first.toNat, dir⟩) ?_ ?_
    · exact mem_triples.mpr ⟨rfl, rfl, le_max_left .., by simp only [endOf]; omega⟩
    · exact mem_triples.mpr ⟨hports.mpr hport, rfl, le_max_right .., by simp only [endOf]; omega⟩
  · intro hapart t hta htb
    obtain ⟨hpa, -, hla, hua⟩ := mem_triples.mp hta
    obtain ⟨hpb, -, hlb, hub⟩ := mem_triples.mp htb
    simp only [endOf] at hla hua hlb hub
    obtain hne | hlt | hlt := hapart
    · exact hne (hports.mp (hpa.symm.trans hpb))
    · omega
    · omega

/-- A receiving and a transmitting triple are never the same. -/
theorem disjoint_dirs (width : Nat) (a b : End) : (a.triples width .rx).Disjoint (b.triples width .tx) := by
  intro t hta htb
  have hrx := (mem_triples.mp hta).2.1
  rw [(mem_triples.mp htb).2.1] at hrx
  cases hrx

/-- The triples of several destinations are apart exactly when the destinations are, two by two. -/
theorem nodup_dests {width : Nat} (hw : 1 ≤ width) {l : List RawEnd} (hl : ∀ e ∈ l, Fits width e) :
    ((l.map endOf).flatMap (End.triples width .tx)).Nodup ↔ l.Pairwise (RawEnd.Apart width) := by
  rw [List.nodup_flatMap, List.pairwise_map]
  have heach : ∀ x ∈ l.map endOf, (End.triples width .tx x).Nodup := fun x _ => nodup_triples ..
  rw [and_iff_right heach]
  refine List.Pairwise.iff_of_mem fun ha hb => ?_
  exact disjoint_iff_apart hw (hl _ ha) (hl _ hb) .tx

theorem nodup_oneWay {width : Nat} (hw : 1 ≤ width) {l : List RawEnd} (hl : ∀ e ∈ l, Fits width e) (src : End) :
    (src.triples width .rx ++ (l.map endOf).flatMap (End.triples width .tx)).Nodup ↔
      l.Pairwise (RawEnd.Apart width) := by
  rw [List.nodup_append', nodup_dests hw hl, and_iff_right (nodup_triples ..), and_iff_left]
  intro t hsrc hdest
  obtain ⟨x, -, hx⟩ := List.mem_flatMap.mp hdest
  exact disjoint_dirs _ _ _ hsrc hx

theorem nodup_bothWays {width : Nat} (hw : 1 ≤ width) {a b : RawEnd} (ha : Fits width a) (hb : Fits width b) :
    ((endOf a).triples width .rx ++ (endOf a).triples width .tx ++
      ((endOf b).triples width .rx ++ (endOf b).triples width .tx)).Nodup ↔ RawEnd.Apart width a b := by
  have hself : ∀ x : End, (x.triples width .rx ++ x.triples width .tx).Nodup := fun x =>
    List.nodup_append'.mpr ⟨nodup_triples .., nodup_triples .., disjoint_dirs ..⟩
  rw [List.nodup_append', and_iff_right (hself _), and_iff_right (hself _), List.disjoint_append_left,
    List.disjoint_append_right, List.disjoint_append_right, disjoint_iff_apart hw ha hb,
    disjoint_iff_apart hw ha hb, and_iff_left (disjoint_dirs ..), and_iff_right (disjoint_dirs ..).symm, and_self]

/-! ### The plan (R67, R68) -/

theorem kind_eq_some {b : Byte} {k : Kind} : kind? b = some k ↔ k.number = b := by
  unfold kind?
  by_cases h0 : b = 0
  · subst h0
    cases k <;> decide
  by_cases h1 : b = 1
  · subst h1
    cases k <;> decide
  by_cases h2 : b = 2
  · subst h2
    cases k <;> decide
  · rw [if_neg h0, if_neg h1, if_neg h2]
    refine ⟨fun h => absurd h.symm (Option.some_ne_none k), fun h => ?_⟩
    cases k
    exacts [absurd h.symm h0, absurd h.symm h1, absurd h.symm h2]

theorem kind_exists {b : Byte} (h : b.toNat ≤ 2) : ∃ k : Kind, k.number = b := by
  have hcases : b.toNat = 0 ∨ b.toNat = 1 ∨ b.toNat = 2 := by omega
  obtain h | h | h := hcases
  · exact ⟨.simplex, BitVec.eq_of_toNat_eq h.symm⟩
  · exact ⟨.duplex, BitVec.eq_of_toNat_eq h.symm⟩
  · exact ⟨.branch, BitVec.eq_of_toNat_eq h.symm⟩

theorem kind_number_le (k : Kind) : k.number.toNat ≤ 2 := by
  cases k <;> decide

theorem plan_eq_some {q : ConnectReq} {p : ConnectPlan} : connectPlan q = some p ↔
    ∃ k : Kind, k.number = q.kind ∧ Fits q.width.toNat q.source ∧ (∀ e ∈ q.dests, Fits q.width.toNat e) ∧
      1 ≤ q.width.toNat ∧ q.width.toNat ≤ 35 ∧ k.allowsCount q.dests.length = true ∧
      (connectTriples k q.width.toNat (endOf q.source) (q.dests.map endOf)).Nodup ∧
      p = ⟨k, q.width.toNat, endOf q.source, q.dests.map endOf⟩ := by
  constructor
  · intro h
    unfold connectPlan at h
    dsimp only at h
    split at h
    case h_1 k src dests hk hsrc hdests =>
      obtain ⟨hfit, rfl⟩ := toEnd_eq_some.mp hsrc
      obtain ⟨hfits, rfl⟩ := toEnds_eq_some.mp hdests
      split at h
      case isTrue hc =>
        obtain ⟨hlow, hhigh, hcount, hnodup⟩ := hc
        rw [List.length_map] at hcount
        exact ⟨k, kind_eq_some.mp hk, hfit, hfits, hlow, hhigh, hcount, hnodup, (Option.some.inj h).symm⟩
      case isFalse => cases h
    case h_2 => cases h
  · rintro ⟨k, hk, hfit, hfits, hlow, hhigh, hcount, hnodup, rfl⟩
    unfold connectPlan
    dsimp only
    rw [kind_eq_some.mpr hk, toEnd_eq_some.mpr ⟨hfit, rfl⟩, toEnds_eq_some.mpr ⟨hfits, rfl⟩]
    exact if_pos ⟨hlow, hhigh, by rwa [List.length_map], hnodup⟩

/-- What a kind asks of its destinations: their count, and which ends lie apart. -/
theorem kind_allows {k : Kind} {width : Nat} {src : RawEnd} {l : List RawEnd} (hw : 1 ≤ width)
    (hsrc : Fits width src) (hl : ∀ e ∈ l, Fits width e) :
    (k.allowsCount l.length = true ∧ (connectTriples k width (endOf src) (l.map endOf)).Nodup) ↔
      (k.number.toNat ≤ 1 → l.length = 1) ∧ (k.number.toNat = 2 → 2 ≤ l.length ∧ l.length ≤ 4) ∧
      (k.number.toNat ≠ 1 → l.Pairwise (RawEnd.Apart width)) ∧
      (k.number.toNat = 1 → ∀ d ∈ l, RawEnd.Apart width src d) := by
  have honeWay := nodup_oneWay hw hl (endOf src)
  cases k with
  | simplex => simp [Kind.allowsCount, Kind.number, connectTriples, honeWay]
  | branch => simp [Kind.allowsCount, Kind.number, connectTriples, honeWay]
  | duplex =>
    simp only [Kind.allowsCount, Kind.number, connectTriples, beq_iff_eq]
    have hboth : l.length = 1 → (((endOf src).triples width .rx ++ (endOf src).triples width .tx ++
        (l.map endOf).flatMap fun d => d.triples width .rx ++ d.triples width .tx).Nodup ↔
          ∀ d ∈ l, RawEnd.Apart width src d) := by
      intro hlen
      obtain ⟨d, rfl⟩ := List.length_eq_one_iff.mp hlen
      have hd := nodup_bothWays hw hsrc (hl d (List.mem_singleton_self d))
      simpa using hd
    constructor
    · rintro ⟨hlen, hnodup⟩
      exact ⟨fun _ => hlen, fun h => absurd h (by decide), fun h => absurd rfl h, fun _ => (hboth hlen).mp hnodup⟩
    · rintro ⟨hlen, -, -, hapart⟩
      have hlen := hlen (by decide)
      exact ⟨hlen, (hboth hlen).mpr (hapart rfl)⟩

/-- Settles O31. -/
theorem connectChecksItsParameters : Obligations.ConnectChecksItsParameters := by
  refine ⟨fun q => ?_, fun q p h => ?_, fun w src dests => ⟨rfl, ?_, fun b => ?_⟩⟩
  · rw [Option.isSome_iff_exists]
    constructor
    · rintro ⟨p, h⟩
      obtain ⟨k, hk, hfit, hfits, hlow, hhigh, hcount, hnodup, -⟩ := plan_eq_some.mp h
      obtain ⟨hone, hmany, hpairs, hboth⟩ := (kind_allows hlow hfit hfits).mp ⟨hcount, hnodup⟩
      rw [← hk]
      exact ⟨kind_number_le k, hlow, hhigh, hone, hmany, List.forall_mem_cons.mpr ⟨hfit, hfits⟩, hpairs, hboth⟩
    · rintro ⟨hkind, hlow, hhigh, hone, hmany, hends, hpairs, hboth⟩
      obtain ⟨k, hk⟩ := kind_exists hkind
      obtain ⟨hfit, hfits⟩ := List.forall_mem_cons.mp hends
      rw [← hk] at hone hmany hpairs hboth
      obtain ⟨hcount, hnodup⟩ := (kind_allows hlow hfit hfits).mpr ⟨hone, hmany, hpairs, hboth⟩
      exact ⟨_, plan_eq_some.mpr ⟨k, hk, hfit, hfits, hlow, hhigh, hcount, hnodup, rfl⟩⟩
  · obtain ⟨k, hk, hfit, hfits, -, -, -, -, rfl⟩ := plan_eq_some.mp h
    refine ⟨hk, rfl, Prod.ext (port_endOf hfit) rfl, ?_⟩
    rw [List.map_map]
    exact List.map_congr_left fun e he => Prod.ext (port_endOf (hfits e he)) rfl
  · have hdests : End.triples w .tx = fun d => (List.range w).map fun k => (⟨d.port, d.first + k, .tx⟩ : Triple) :=
      funext fun d => end_triples w .tx d
    simp only [connectTriples, end_triples, hdests]
  · simp only [connectTriples, end_triples, List.flatMap_cons, List.flatMap_nil, List.append_nil]

end Sys2Proof.Proofs
end

section
/-! PROOFS. The queries' images (O36). -/

namespace Sys2Proof.Proofs

open Sys2Proof Sys2Proof.Machine

/-! ### Parts of a byte string -/

section
variable {l a b : List Byte} {n k : Nat} (h : l.drop n = a ++ b) (ha : a.length = k)
include h ha

theorem part_eq : (l.drop n).take k = a := by
  rw [h]
  exact List.take_left' ha

theorem drop_part : l.drop (n + k) = b := by
  rw [← List.drop_drop, h]
  exact List.drop_left' ha

end

/-- Entry i of destination entries of two bytes each, padded with zeros. -/
theorem entry_padded {f : Dest → List Byte} (hf : ∀ d, (f d).length = 2) (l : List Dest) {i m : Nat}
    (h : 2 * i + 2 ≤ m) : ((l.flatMap f ++ List.replicate m 0).drop (2 * i)).take 2 =
      l[i]?.elim [0, 0] f := by
  induction l generalizing i with
  | nil =>
    rw [List.flatMap_nil, List.nil_append, List.drop_replicate, List.take_replicate, Nat.min_eq_left (by omega)]
    rfl
  | cons d l ih =>
    rw [List.flatMap_cons, List.append_assoc]
    cases i with
    | zero => exact List.take_left' (hf d)
    | succ i =>
      rw [show 2 * (i + 1) = (f d).length + 2 * i by rw [hf]; omega, ← List.drop_drop, List.drop_left,
        ih (by omega), List.getElem?_cons_succ]

theorem length_destBytes (s : State) (d : Dest) : (s.destBytes d).length = 2 := rfl

/-- The i-th of the four destination entries of an image. -/
theorem destEntry_eq (s : State) (l : List Dest) {i : Nat} (h : i < 4) :
    ((padTo 8 (l.flatMap s.destBytes)).drop (2 * i)).take 2 = l[i]?.elim [0, 0] s.destBytes := by
  rw [padTo, List.drop_take, List.take_take, Nat.min_eq_left (by omega)]
  exact entry_padded (length_destBytes s) l (by omega)

/-! ### The record image (R82, R83, R190) -/

theorem looped_iff {s : State} {n : PortNo} : s.looped n = true ↔
    s.ports[n].maint.loop = .returnHost ∨ s.ports[n].maint.loop = .returnCode := by
  unfold State.looped
  cases s.ports[n].maint.loop <;> simp [LoopState.returns]

theorem destBytes_eq (s : State) (d : Dest) : s.destBytes d = [BitVec.ofNat 8 (d.dest.port.val * 16 +
    (match d.state with | .inService => 0 | .joining => 4 | .leaving => 8) +
    (if s.ports[d.dest.port].maint.loop = .returnHost ∨
      s.ports[d.dest.port].maint.loop = .returnCode then 1 else 0)), BitVec.ofNat 8 d.dest.first] := by
  have hstate : d.state.number.toNat * 4 = match d.state with | .inService => 0 | .joining => 4 | .leaving => 8 := by
    cases d.state <;> rfl
  have hlooped : (s.looped d.dest.port).toNat = if s.ports[d.dest.port].maint.loop = .returnHost ∨
      s.ports[d.dest.port].maint.loop = .returnCode then 1 else 0 := by
    rw [Bool.toNat, ← if_congr (looped_iff (s := s) (n := d.dest.port)) rfl rfl]
    cases s.looped d.dest.port <;> rfl
  rw [State.destBytes, hstate, hlooped]
  rfl

/-- The flags byte of a record's image. -/
def imageFlags (s : State) (r : Record) : Byte :=
  (if r.pending then 1 else 0) + (if r.standby.isSome then 2 else 0) + (if r.leaving.isSome then 4 else 0) +
    (if (r.context.bind s.contexts.get).isSome then 8 else 0) +
    (if r.kind = .duplex ∧ (s.ports[r.source.port].maint.loop = .returnHost ∨
      s.ports[r.source.port].maint.loop = .returnCode) then 16 else 0)

theorem contextOf_isSome (s : State) (r : Record) :
    (s.contextOf r).isSome = (r.context.bind s.contexts.get).isSome := by
  unfold State.contextOf
  cases r.context with
  | none => rfl
  | some k =>
    dsimp only
    rw [Option.isSome_map, Option.bind_some]

theorem flags_eq (s : State) (r : Record) : flagBit r.pending 1 + flagBit r.standby.isSome 2 +
    flagBit r.leaving.isSome 4 + flagBit (s.contextOf r).isSome 8 +
    flagBit (r.kind == .duplex && s.looped r.source.port) 16 = imageFlags s r := by
  have hduplex : flagBit (r.kind == .duplex && s.looped r.source.port) 16 =
      if r.kind = .duplex ∧ (s.ports[r.source.port].maint.loop = .returnHost ∨
        s.ports[r.source.port].maint.loop = .returnCode) then 16 else 0 :=
    if_congr (by rw [Bool.and_eq_true, beq_iff_eq, looped_iff]) rfl rfl
  rw [hduplex, contextOf_isSome]
  rfl

/-- The parts of a record's image, in their order. -/
theorem recordImage_parts (s : State) (id : Half) (r : Record) : (s.recordImage id.toNat r).drop 0 =
    (halfBytes id ++ [r.state.number, r.kind.number, BitVec.ofNat 8 r.width, r.revision]) ++
      ([imageFlags s r] ++
      ([BitVec.ofNat 8 r.source.port.val, BitVec.ofNat 8 r.source.first, BitVec.ofNat 8 r.dests.length] ++
      (padTo 8 (r.dests.flatMap s.destBytes) ++ ((r.standby.or r.leaving).elim [0, 0] End.bytes ++
      ((wordBytes r.label ++ [r.code, r.holdOff, r.clearTime]) ++ (r.healthAB.bytes ++
      (r.healthBA.elim [0, 0] Health.bytes ++ (r.healthS.elim [0, 0] Health.bytes ++
      contextBytes (s.contextOf r))))))))) := by
  rw [List.drop_zero, State.recordImage, flags_eq, idBytes_toNat]
  simp only [List.append_assoc, List.cons_append, List.nil_append, End.bytes, byteOf]

/-- What O36 lists of a record's image. -/
theorem recordImage_reports (s : State) (id : Half) (r : Record) : ∃ b : List Byte,
    b = s.recordImage id.toNat r ∧ b.length = 43 ∧
    b.take 6 = halfBytes id ++ [r.state.number, r.kind.number, BitVec.ofNat 8 r.width, r.revision] ∧
    b[6]? = some (imageFlags s r) ∧
    (b.drop 7).take 3 = [BitVec.ofNat 8 r.source.port.val, BitVec.ofNat 8 r.source.first,
      BitVec.ofNat 8 r.dests.length] ∧
    (∀ i < 4, (b.drop (10 + 2 * i)).take 2 = r.dests[i]?.elim [0, 0] s.destBytes) ∧
    (b.drop 18).take 2 = (r.standby.or r.leaving).elim [0, 0] End.bytes ∧
    (b.drop 20).take 7 = wordBytes r.label ++ [r.code, r.holdOff, r.clearTime] ∧
    (b.drop 27).take 2 = r.healthAB.bytes ∧ (b.drop 29).take 2 = r.healthBA.elim [0, 0] Health.bytes ∧
    (b.drop 31).take 2 = r.healthS.elim [0, 0] Health.bytes ∧ b.drop 33 = contextBytes (s.contextOf r) := by
  have h0 := recordImage_parts s id r
  refine ⟨_, rfl, length_recordImage s id.toNat r, ?_⟩
  generalize s.recordImage id.toNat r = b at h0 ⊢
  have h6 := drop_part h0 (k := 6) rfl
  have h7 := drop_part h6 (k := 1) rfl
  have h10 := drop_part h7 (k := 3) rfl
  have h18 := drop_part h10 (length_destsBytes s r.dests)
  have h20 := drop_part h18 (length_optEnd _)
  have h27 := drop_part h20 (k := 7) rfl
  have h29 := drop_part h27 (k := 2) rfl
  have h31 := drop_part h29 (length_optHealth _)
  have h33 := drop_part h31 (length_optHealth _)
  refine ⟨part_eq h0 (k := 6) rfl, ?_, part_eq h7 (k := 3) rfl, fun i hi => ?_, part_eq h18 (length_optEnd _),
    part_eq h20 (k := 7) rfl, part_eq h27 (k := 2) rfl, part_eq h29 (length_optHealth _),
    part_eq h31 (length_optHealth _), h33⟩
  · have hfirst := congrArg List.head? h6
    rwa [List.head?_drop] at hfirst
  · have hentries : (b.drop 10).take 8 = padTo 8 (r.dests.flatMap s.destBytes) :=
      part_eq h10 (length_destsBytes s r.dests)
    rw [← destEntry_eq s r.dests hi, ← hentries, List.drop_take, List.take_take, Nat.min_eq_left (by omega),
      List.drop_drop]

theorem exec_query (id : Half) (s : State) : exec (.query id) s =
    carryOut (.query id) (onRecord id fun k r s => (.ok (s.recordImage k r), s)) s := rfl

/-! ### The port's and the part's images (R20, R185) -/

theorem exec_portQuery (port : Byte) (s : State) : exec (.portQuery port) s =
    carryOut (.portQuery port) (onPort port fun n s => (.ok (s.ports[n].image n), s)) s := rfl

theorem byteOf_port {port : Byte} {n : PortNo} (h : n.val = port.toNat) : byteOf n.val = port := by
  rw [byteOf, h, BitVec.ofNat_toNat, BitVec.setWidth_eq]

theorem image_eq {port : Byte} {n : PortNo} (h : n.val = port.toNat) (p : Port) : p.image n =
    [port, (if p.config.enable then 1 else 0) + (if p.config.codeResponse then 2 else 0) +
      (if p.config.farSend then 4 else 0), p.config.idleCode, p.config.threshold,
      p.config.loopTimeout, p.framer.state.number, p.sourceDefect.number,
      p.maint.loop.number + (if p.maint.farAlarm then 16 else 0)] ++
      halfBytes (BitVec.ofNat 16 p.slip.slips) ++ halfBytes (BitVec.ofNat 16 p.framer.erroredCount) ++
      [BitVec.ofNat 8 p.slip.periodSlips, BitVec.ofNat 8 p.slip.fill] := by
  rw [Port.image, byteOf_port h]
  rfl

theorem refState_byte (x : RefState) : x.number = if x = .freewheel then 1 else 0 := by cases x <;> rfl

/-- Settles O36. -/
theorem queriesReportAndChangeNothing : Obligations.QueriesReportAndChangeNothing := by
  refine fun s x => ⟨fun id hx => ⟨fun h => ?_, fun h hr => ?_, fun r h hr => ?_⟩,
    fun port hx => ⟨fun h => ?_, fun n p hn hp => ?_⟩, fun hx => ?_⟩
  · rw [exec_query, carryOut_handed hx, onRecord_range h, Answer.bare]
  · rw [exec_query, carryOut_handed hx, onRecord_none h hr, Answer.bare]
  · obtain ⟨b, hb, hlen, h0, h6, h7, h10, h18, h20, h27, h29, h31, h33⟩ := recordImage_reports s id r
    refine ⟨b, ?_, hlen, h0, h6, h7, fun i hi => (h10 i hi).trans ?_, h18.trans ?_, h20, h27, h29.trans ?_, h31.trans ?_,
      fun hnone => h33.trans ?_, fun k c hk hc => h33.trans ?_⟩
    · rw [exec_query, carryOut_handed hx, onRecord_some h hr, hb]
      rfl
    · cases r.dests[i]? with
      | none => rfl
      | some d =>
        refine (destBytes_eq s d).trans ?_
        obtain ⟨dest, state⟩ := d
        cases state <;> rfl
    · cases r.standby <;> cases r.leaving <;> rfl
    · cases r.healthBA <;> rfl
    · cases r.healthS <;> rfl
    · rw [State.contextOf, hnone]
      rfl
    · rw [contextOf_eq_some.mpr ⟨hk, hc⟩]
      rfl
  · rw [exec_portQuery, carryOut_handed hx, onPort_none _ _ h, Answer.bare]
  · rw [exec_portQuery, carryOut_handed hx, onPort_some _ _ hn, image_eq hn, hp]
    rfl
  · rw [exec_deviceQuery, execDeviceQuery_ok hx, State.deviceData, refState_byte]
    cases hsel : s.ref.selection with
    | external =>
      rw [RefMonitor.selectionBytes, hsel]
      rfl
    | port n =>
      rw [RefMonitor.selectionBytes, hsel]
      rfl

end Sys2Proof.Proofs
end

section
/-! PROOFS. PROTECT and UNPROTECT (O39), and SWITCH (O40). -/

namespace Sys2Proof.Proofs

open Sys2Proof Sys2Proof.Machine

/-! ### PROTECT and UNPROTECT (R127 to R129) -/

theorem mode_none {b : Byte} (h : 2 ≤ b.toNat) : mode? b = none := by
  have h0 : b ≠ 0 := by rintro rfl; exact absurd h (by decide)
  have h1 : b ≠ 1 := by rintro rfl; exact absurd h (by decide)
  rw [mode?, if_neg h0, if_neg h1]

theorem mode_number (m : Mode) : mode? m.number = some m := by cases m <;> rfl

theorem canProtect_none {r : Record} {q : ProtectReq}
    (h : r.kind = .duplex ∨ 16 ≤ q.standby.port.toNat ∨ q.standby.first.toNat = 0 ∨
      36 < q.standby.first.toNat + r.width ∨ 2 ≤ q.mode.toNat ∨ q.wtr = some 0) : r.canProtect q = none := by
  unfold Record.canProtect
  split
  case h_2 => rfl
  case h_1 e mode he hm =>
    refine if_neg ?_
    rintro ⟨hkind, hwtr, -⟩
    obtain h | h | h | h | h | h := h
    · exact hkind h
    · rw [toEnd_none (.inl h)] at he
      cases he
    · rw [toEnd_none (.inr (.inl h))] at he
      cases he
    · rw [toEnd_none (.inr (.inr h))] at he
      cases he
    · rw [mode_none h] at hm
      cases hm
    · exact hwtr h

theorem canProtect_eq {r : Record} {q : ProtectReq} {e : End} {mode : Mode}
    (he : toEnd r.width q.standby = some e) (hm : mode? q.mode = some mode) (hkind : r.kind ≠ .duplex)
    (hwtr : q.wtr ≠ some 0) : r.canProtect q =
      if ∀ t ∈ e.triples r.width .rx, t ∉ r.triples then some (e, mode) else none := by
  unfold Record.canProtect
  rw [he, hm]
  exact if_congr (by rw [and_iff_right hkind, and_iff_right hwtr]) rfl rfl

theorem exec_protect (q : ProtectReq) (s : State) :
    exec (.protect q) s = carryOut (.protect q) (onRevision q.id q.expected (protectRecord q)) s := rfl

theorem exec_unprotect (id : Half) (expected : Byte) (s : State) : exec (.unprotect id expected) s =
    carryOut (.unprotect id expected) (onRevision id expected unprotectRecord) s := rfl

theorem protectRecord_wrongState {r : Record}
    (h : r.state = .retiring ∨ r.context.isSome = true ∨ r.leaving.isSome = true) (q : ProtectReq) (id : Nat)
    (s : State) : protectRecord q id r s = (⟨.wrongState, [r.revision, r.state.number]⟩, s) := if_pos h

section
variable {r : Record} {q : ProtectReq} {e : End} {mode : Mode}
  (h : ¬ (r.state = .retiring ∨ r.context.isSome = true ∨ r.leaving.isSome = true)) (id : Nat) (s : State)
include h

theorem protectRecord_badParam (hcan : r.canProtect q = none) :
    protectRecord q id r s = (⟨.badParam, []⟩, s) := by
  rw [protectRecord, if_neg h, hcan]
  rfl

variable (hcan : r.canProtect q = some (e, mode))
include hcan

theorem protectRecord_slotTaken {t : Triple} {holder : Nat}
    (hheld : firstHeld s.slotMap (e.triples r.width .rx) = some (t, holder)) :
    protectRecord q id r s = (.slotTaken t holder, s) := by
  rw [protectRecord, if_neg h, hcan]
  dsimp only
  rw [hheld]

variable (hfree : firstHeld s.slotMap (e.triples r.width .rx) = none)
include hfree

theorem protectRecord_noContext (hfull : s.contexts.lowestFree Config.contexts = none) :
    protectRecord q id r s = (⟨.noContext, []⟩, s) := by
  rw [protectRecord, if_neg h, hcan]
  dsimp only
  rw [hfree]
  dsimp only
  rw [hfull]
  rfl

theorem protectRecord_ok {k : Nat} (hk : s.contexts.lowestFree Config.contexts = some k) :
    protectRecord q id r s = (.ok (idBytes id ++ [r.state.number, r.revision + 1, byteOf k]),
      { ((s.setRecord id (r.withStandby e k)).reserve (e.triples r.width .rx) id) with
        contexts := s.contexts.put k (newContext id mode q.wtr) }) := by
  rw [protectRecord, if_neg h, hcan]
  dsimp only
  rw [hfree]
  dsimp only
  rw [hk]
  rfl

end

theorem unprotectRecord_unbound {r : Record} (hstate : r.state ≠ .retiring) (hc : r.context = none) (id : Nat)
    (s : State) : unprotectRecord id r s = (⟨.wrongState, [r.revision, r.state.number]⟩, s) := by
  rw [unprotectRecord, if_neg hstate, State.contextOf, hc]
  rfl

theorem unprotectRecord_ok {r : Record} {s : State} {k : Nat} {c : Context} (hstate : r.state ≠ .retiring)
    (hk : r.context = some k) (hc : s.contexts.get k = some c) (id : Nat) : unprotectRecord id r s =
      (.ok (idBytes id ++ [r.state.number, r.revision + 1, byteOf k] ++ countBytes c.switches),
        (s.unbind (some k)).setRecord id r.unprotected) := by
  rw [unprotectRecord, if_neg hstate, contextOf_eq_some.mpr ⟨hk, hc⟩]
  rfl

/-- Settles O39. -/
theorem protectBindsAndUnprotectFreesContext : Obligations.ProtectBindsAndUnprotectFreesContext := by
  refine ⟨fun q s x r hx hid hr hrev => ?_, fun id expected s x r hx hid hr hrev hstate => ?_⟩
  · rw [exec_record_step hx (exec_protect q s) hid hr hrev]
    refine ⟨fun h => by rw [protectRecord_wrongState h], fun hstate hcontext hleaving => ?_⟩
    have hopen : ¬ (r.state = .retiring ∨ r.context.isSome = true ∨ r.leaving.isSome = true) := by
      simp [hstate, hcontext, hleaving]
    refine ⟨fun h => ?_, fun n mode ts hkind hn hfirst hlast hmode hwtr hts => ?_⟩
    · rw [protectRecord_badParam hopen _ s (canProtect_none h)]
    have htriples : (⟨n, q.standby.first.toNat⟩ : End).triples r.width .rx = ts := by rw [end_triples, hts]
    have hcan := canProtect_eq (toEnd_some hn hfirst hlast) (hmode ▸ mode_number mode) hkind hwtr
    rw [htriples] at hcan
    refine ⟨fun ⟨t, ht, hin⟩ => ?_, fun hnew =>
      ⟨fun before t after holder hsplit hbefore hheld => ?_, fun hfree hfull => ?_, fun k hfree hlt hnone hbelow => ?_⟩⟩
    · rw [if_neg fun hnew => hnew t ht hin] at hcan
      rw [protectRecord_badParam hopen _ s hcan]
    all_goals rw [if_pos hnew] at hcan
    · have hfirstHeld := firstHeld_split (after := after) hbefore hheld
      rw [← hsplit, ← htriples] at hfirstHeld
      rw [protectRecord_slotTaken hopen _ s hcan hfirstHeld]
      rfl
    · rw [← htriples] at hfree
      rw [protectRecord_noContext hopen _ s hcan (firstHeld_none.mpr hfree) (lowestFree_eq_none.mpr hfull)]
    · rw [← htriples] at hfree
      rw [protectRecord_ok hopen _ s hcan (firstHeld_none.mpr hfree) (lowestFree_eq_some.mpr ⟨hlt, hnone, hbelow⟩),
        htriples, idBytes_toNat]
      rfl
  · rw [exec_record_step hx (exec_unprotect id expected s) hid hr hrev]
    refine ⟨fun h => by rw [unprotectRecord_unbound hstate h], fun k c hk hc => ?_⟩
    rw [unprotectRecord_ok hstate hk hc, idBytes_toNat]
    rfl

/-! ### SWITCH (R131 to R135) -/

theorem exec_switch (id : Half) (expected command : Byte) (s : State) : exec (.switch id expected command) s =
    carryOut (.switch id expected command) (onRevision id expected (switchRecord command)) s := rfl

/-- The numbers of the five commands (R189). -/
theorem switchCommand_cases {command : Byte} (h1 : 1 ≤ command.toNat) (h5 : command.toNat ≤ 5) :
    (command = 1 ∧ switchCommand? command = some .holdWorking) ∨
      (command = 2 ∧ switchCommand? command = some .forceStandby) ∨
      (command = 3 ∧ switchCommand? command = some .manualStandby) ∨
      (command = 4 ∧ switchCommand? command = some .manualWorking) ∨
      (command = 5 ∧ switchCommand? command = some .clear) := by
  have hcases : command.toNat = 1 ∨ command.toNat = 2 ∨ command.toNat = 3 ∨ command.toNat = 4 ∨
      command.toNat = 5 := by omega
  obtain h | h | h | h | h := hcases
  · obtain rfl : command = 1 := BitVec.eq_of_toNat_eq h
    exact .inl ⟨rfl, rfl⟩
  · obtain rfl : command = 2 := BitVec.eq_of_toNat_eq h
    exact .inr (.inl ⟨rfl, rfl⟩)
  · obtain rfl : command = 3 := BitVec.eq_of_toNat_eq h
    exact .inr (.inr (.inl ⟨rfl, rfl⟩))
  · obtain rfl : command = 4 := BitVec.eq_of_toNat_eq h
    exact .inr (.inr (.inr (.inl ⟨rfl, rfl⟩)))
  · obtain rfl : command = 5 := BitVec.eq_of_toNat_eq h
    exact .inr (.inr (.inr (.inr ⟨rfl, rfl⟩)))

theorem switchCommand_none {command : Byte} (h : command.toNat = 0 ∨ 5 < command.toNat) :
    switchCommand? command = none := by
  unfold switchCommand?
  repeat' split
  case isFalse.isFalse.isFalse.isFalse.isFalse => rfl
  all_goals
    subst command
    exact absurd h (by decide)

/-- Where a command takes a context: its request state and its selected source (R132 to R135). -/
def destination (c : Context) (workingBad standbyBad : Bool) : SwitchCommand → Option (ReqState × Machine.Selected)
  | .holdWorking => if c.request = .holdWorking then none else some (.holdWorking, .working)
  | .forceStandby =>
    if c.request = .holdWorking ∨ c.request = .failStandby ∨ c.request = .forceStandby then none
    else some (.forceStandby, .standby)
  | .manualStandby =>
    if c.request = .none ∨ c.request = .restoreWait ∨ c.request = .manualWorking then
      if standbyBad then none else some (.manualStandby, .standby)
    else none
  | .manualWorking =>
    if c.request = .none ∨ c.request = .restoreWait ∨ c.request = .manualStandby then
      if workingBad then none else some (.manualWorking, .working)
    else none
  | .clear =>
    if c.request = .none ∨ c.request = .restoreWait ∨ c.request = .failWorking ∨ c.request = .failStandby then
      none
    else if standbyBad then some (.failStandby, .working)
    else if workingBad then some (.failWorking, .standby)
    else if c.mode = .revertive then some (.none, .working)
    else some (.none, c.selected)

theorem reevaluate_eq (c : Context) (workingBad standbyBad : Bool) : c.reevaluate workingBad standbyBad =
    if standbyBad then c.enter .failStandby .working
    else if workingBad then c.enter .failWorking .standby
    else if c.mode = .revertive then c.enter .none .working
    else c.enter .none c.selected := by
  unfold Context.reevaluate
  cases c.mode <;> rfl

theorem command_eq (c : Context) (workingBad standbyBad : Bool) (cmd : SwitchCommand) :
    c.command workingBad standbyBad cmd =
      (destination c workingBad standbyBad cmd).map fun d => c.enter d.1 d.2 := by
  cases cmd with
  | clear =>
    simp only [Context.command, destination, reevaluate_eq]
    cases c.request <;> cases standbyBad <;> cases workingBad <;> cases c.mode <;> rfl
  | holdWorking =>
    simp only [Context.command, destination]
    cases c.request <;> rfl
  | forceStandby =>
    simp only [Context.command, destination]
    cases c.request <;> rfl
  | manualStandby =>
    simp only [Context.command, destination]
    cases c.request <;> cases standbyBad <;> rfl
  | manualWorking =>
    simp only [Context.command, destination]
    cases c.request <;> cases workingBad <;> rfl

theorem switchRecord_unbound {r : Record} (hstate : r.state ≠ .retiring) (hc : r.context = none) (command : Byte)
    (id : Nat) (s : State) :
    switchRecord command id r s = (⟨.wrongState, [r.revision, r.state.number]⟩, s) := by
  rw [switchRecord, if_neg hstate, State.contextOf, hc]
  rfl

section
variable {r : Record} {s : State} {k : Nat} {c : Context} {command : Byte} (hstate : r.state ≠ .retiring)
  (hk : r.context = some k) (hc : s.contexts.get k = some c) (id : Nat)
include hstate hk hc

theorem switchRecord_badParam (hcmd : switchCommand? command = none) :
    switchRecord command id r s = (⟨.badParam, []⟩, s) := by
  rw [switchRecord, if_neg hstate, contextOf_eq_some.mpr ⟨hk, hc⟩]
  dsimp only
  rw [hcmd]
  rfl

variable {cmd : SwitchCommand} (hcmd : switchCommand? command = some cmd)
include hcmd

theorem switchRecord_refused (hno : destination c r.healthAB.bad r.standbyBad cmd = none) :
    switchRecord command id r s = (⟨.wrongState, [r.revision, r.state.number]⟩, s) := by
  rw [switchRecord, if_neg hstate, contextOf_eq_some.mpr ⟨hk, hc⟩]
  dsimp only
  rw [hcmd]
  dsimp only
  rw [command_eq, hno]
  rfl

theorem switchRecord_ok {y : ReqState} {sel : Machine.Selected}
    (hout : destination c r.healthAB.bad r.standbyBad cmd = some (y, sel)) :
    switchRecord command id r s =
      (.ok (idBytes id ++ [r.state.number, r.revision, y.number, sel.number] ++
        countBytes (((s.commitContext id k c (c.enter y sel)).contexts.get k).elim 0 fun x => x.switches)),
        s.commitContext id k c (c.enter y sel)) := by
  rw [switchRecord, if_neg hstate, contextOf_eq_some.mpr ⟨hk, hc⟩]
  dsimp only
  rw [hcmd]
  dsimp only
  rw [command_eq, hout]
  rfl

end

/-- Settles O40. -/
theorem switchCommandsMoveContext : Obligations.SwitchCommandsMoveContext := by
  intro id expected command s x r hx hid hr hrev hstate
  rw [exec_record_step hx (exec_switch id expected command s) hid hr hrev]
  refine ⟨fun h => by rw [switchRecord_unbound hstate h], fun k c out hk hc hout => ?_⟩
  have hdestination : ∀ cmd, switchCommand? command = some cmd →
      out = destination c r.healthAB.bad r.standbyBad cmd := by
    intro cmd hcmd
    have hrange : 1 ≤ command.toNat ∧ command.toNat ≤ 5 := by
      by_contra hno
      rw [switchCommand_none (by omega)] at hcmd
      cases hcmd
    rw [hout]
    obtain ⟨rfl, h⟩ | ⟨rfl, h⟩ | ⟨rfl, h⟩ | ⟨rfl, h⟩ | ⟨rfl, h⟩ := switchCommand_cases hrange.1 hrange.2
    all_goals
      obtain rfl := Option.some.inj (h.symm.trans hcmd)
      unfold destination
      cases c.request <;> rfl
  have hvalid : ∀ o, out = some o → ∃ cmd, switchCommand? command = some cmd := by
    intro o ho
    by_cases hrange : 1 ≤ command.toNat ∧ command.toNat ≤ 5
    · obtain ⟨-, h⟩ | ⟨-, h⟩ | ⟨-, h⟩ | ⟨-, h⟩ | ⟨-, h⟩ := switchCommand_cases hrange.1 hrange.2
      all_goals exact ⟨_, h⟩
    · rw [ho] at hout
      generalize command.toNat = m at hout hrange
      match m, hrange, hout with
      | 0, _, hout => cases hout
      | m + 6, _, hout => cases hout
  refine ⟨fun h => ?_, fun h1 h5 hno => ?_, fun y sel hsome hsel => ?_, fun y sel count hsome hsel hcount => ?_⟩
  · rw [switchRecord_badParam hstate hk hc _ (switchCommand_none h)]
  · obtain ⟨cmd, hcmd⟩ : ∃ cmd, switchCommand? command = some cmd := by
      obtain ⟨-, h⟩ | ⟨-, h⟩ | ⟨-, h⟩ | ⟨-, h⟩ | ⟨-, h⟩ := switchCommand_cases h1 h5
      all_goals exact ⟨_, h⟩
    rw [switchRecord_refused hstate hk hc _ hcmd ((hdestination cmd hcmd).symm.trans hno)]
  · obtain ⟨cmd, hcmd⟩ := hvalid _ hsome
    have hcommit : s.commitContext id.toNat k c (c.enter y sel) =
        { s with contexts := s.contexts.put k (c.enter y sel) } := commitContext_same hsel.symm
    rw [switchRecord_ok hstate hk hc _ hcmd ((hdestination cmd hcmd).symm.trans hsome), hcommit, idBytes_toNat]
    dsimp only
    rw [Table.get_put_same]
    rfl
  · obtain ⟨cmd, hcmd⟩ := hvalid _ hsome
    have hcommit := commitContext_switch (s := s) (id := id.toNat) (k := k) (b := c) (a := c.enter y sel) hsel.symm
    rw [State.markPending, hr] at hcommit
    rw [switchRecord_ok hstate hk hc _ hcmd ((hdestination cmd hcmd).symm.trans hsome), hcommit, idBytes_toNat]
    dsimp only
    rw [Table.get_put_same, hcount]
    rfl

end Sys2Proof.Proofs
end

section
/-! PROOFS. Steps that each touch one record, its context and its postings, taken for one record after
another: what a record finds and leaves in the middle of such a sweep; and the wait-to-restore expiries
(O42). -/

namespace Sys2Proof.Proofs

open Sys2Proof Sys2Proof.Machine

/-! ### One record's step -/

/-- A step on one record: no other record, context or subject is touched, and no binding moves. -/
structure RecordStep (id : Nat) (u v : State) : Prop where
  records : ∀ j, j ≠ id → v.records.get j = u.records.get j
  bound : (v.records.get id).map Record.context = (u.records.get id).map Record.context
  contexts : ∀ k, (∀ c, u.contexts.get k = some c → c.record ≠ id) → v.contexts.get k = u.contexts.get k
  owner : ∀ k, (v.contexts.get k).map Context.record = (u.contexts.get k).map Context.record
  posted : ∀ x d, x ≠ .record id → (Posted v.attention x d ↔ Posted u.attention x d)
  ports : v.ports = u.ports

theorem RecordStep.refl (id : Nat) (u : State) : RecordStep id u u :=
  ⟨fun _ _ => rfl, rfl, fun _ _ => rfl, fun _ => rfl, fun _ _ _ => Iff.rfl, rfl⟩

theorem RecordStep.trans {id : Nat} {u v w : State} (h : RecordStep id u v) (h' : RecordStep id v w) :
    RecordStep id u w where
  records j hj := (h'.records j hj).trans (h.records j hj)
  bound := h'.bound.trans h.bound
  contexts k hk := by
    have hsame := h.contexts k hk
    exact (h'.contexts k fun c hc => hk c (hsame ▸ hc)).trans hsame
  owner k := (h'.owner k).trans (h.owner k)
  posted x d hx := (h'.posted x d hx).trans (h.posted x d hx)
  ports := h'.ports.trans h.ports

theorem RecordStep.context_iff {id : Nat} {u v : State} (h : RecordStep id u v) (j k : Nat) :
    (∃ r, v.records.get j = some r ∧ r.context = some k) ↔ ∃ r, u.records.get j = some r ∧ r.context = some k := by
  have hmap : (v.records.get j).map Record.context = (u.records.get j).map Record.context := by
    by_cases hj : j = id
    · rw [hj, h.bound]
    · rw [h.records j hj]
  have hiff : ∀ o : Option Record, (∃ r, o = some r ∧ r.context = some k) ↔ o.map Record.context = some (some k) := by
    intro o
    cases o <;> simp
  rw [hiff, hiff, hmap]

theorem RecordStep.owner_iff {id : Nat} {u v : State} (h : RecordStep id u v) (j k : Nat) :
    (∃ c, v.contexts.get k = some c ∧ c.record = j) ↔ ∃ c, u.contexts.get k = some c ∧ c.record = j := by
  have hiff : ∀ o : Option Context, (∃ c, o = some c ∧ c.record = j) ↔ o.map Context.record = some j := by
    intro o
    cases o <;> simp
  rw [hiff, hiff, h.owner k]

theorem RecordStep.binds {id : Nat} {u v : State} (h : RecordStep id u v) (hb : Binds u.records u.contexts) :
    Binds v.records v.contexts := fun k j =>
  (h.context_iff j k).trans ((hb k j).trans (h.owner_iff j k).symm)

/-! ### A sweep seen from one record -/

/-- A record, the context bound to it and its postings stand. -/
structure Untouched (id : Nat) (u v : State) : Prop where
  record : v.records.get id = u.records.get id
  context : ∀ k c, u.contexts.get k = some c → c.record = id → v.contexts.get k = some c
  posted : ∀ d, Posted v.attention (.record id) d ↔ Posted u.attention (.record id) d
  ports : v.ports = u.ports

theorem Untouched.refl (id : Nat) (u : State) : Untouched id u u :=
  ⟨rfl, fun _ _ hc _ => hc, fun _ => Iff.rfl, rfl⟩

theorem Untouched.trans {id : Nat} {u v w : State} (h : Untouched id u v) (h' : Untouched id v w) :
    Untouched id u w :=
  ⟨h'.record.trans h.record, fun k c hc hr => h'.context k c (h.context k c hc hr) hr,
    fun d => (h'.posted d).trans (h.posted d), h'.ports.trans h.ports⟩

/-- Another record's step does not touch it. -/
theorem RecordStep.untouched {id j : Nat} {u v : State} (h : RecordStep j u v) (hne : id ≠ j) :
    Untouched id u v where
  record := h.records id hne
  context k c hc hr := by
    rw [h.contexts k fun c' hc' hj => ?_, hc]
    obtain rfl : c = c' := Option.some.inj (hc.symm.trans hc')
    exact hne (hr.symm.trans hj)
  posted d := h.posted (.record id) d fun heq => hne (Subject.record.inj heq)
  ports := h.ports

section
variable {f : State → Nat → State}
  (hf : ∀ u id, Binds u.records u.contexts → RecordStep id u (f u id))
include hf

theorem binds_sweep (l : List Nat) {u : State} (h : Binds u.records u.contexts) :
    Binds (l.foldl f u).records (l.foldl f u).contexts :=
  foldl_preserves (P := fun u => Binds u.records u.contexts) (fun u id hu => (hf u id hu).binds hu) l h

theorem sweep_untouched {l : List Nat} {id : Nat} (hid : id ∉ l) {u : State} (h : Binds u.records u.contexts) :
    Untouched id u (l.foldl f u) := by
  induction l generalizing u with
  | nil => exact .refl id u
  | cons j l ih =>
    rw [List.mem_cons, not_or] at hid
    exact ((hf u j h).untouched hid.1).trans (ih hid.2 ((hf u j h).binds h))

/-- A record's turn in a sweep: it finds itself as it was before the sweep, and what its step leaves stands. -/
theorem sweep_around {l : List Nat} (hl : l.Nodup) {id : Nat} (hid : id ∈ l) {s : State}
    (h : Binds s.records s.contexts) : ∃ u : State, Binds u.records u.contexts ∧ Untouched id s u ∧
      Untouched id (f u id) (l.foldl f s) := by
  obtain ⟨before, after, rfl⟩ := List.append_of_mem hid
  obtain ⟨-, hafter, hdisjoint⟩ := List.nodup_append.mp hl
  have hbefore : id ∉ before := fun hin => hdisjoint id hin id (List.mem_cons_self ..) rfl
  have hu := binds_sweep hf before h
  refine ⟨before.foldl f s, hu, sweep_untouched hf hbefore h, ?_⟩
  rw [List.foldl_append, List.foldl_cons]
  exact sweep_untouched hf (List.nodup_cons.mp hafter).1 ((hf _ id hu).binds hu)

/-- No record and no context comes or goes. -/
theorem sweep_keys (l : List Nat) {s : State} (h : Binds s.records s.contexts) :
    (∀ id, (l.foldl f s).records.get id = none ↔ s.records.get id = none) ∧
      ∀ k, (l.foldl f s).contexts.get k = none ↔ s.contexts.get k = none := by
  induction l generalizing s with
  | nil => exact ⟨fun _ => Iff.rfl, fun _ => Iff.rfl⟩
  | cons j l ih =>
    have hstep := hf s j h
    obtain ⟨hrecords, hcontexts⟩ := ih (hstep.binds h)
    refine ⟨fun id => (hrecords id).trans ?_, fun k => (hcontexts k).trans ?_⟩
    · by_cases hid : id = j
      · rw [hid, ← Option.map_eq_none_iff (f := Record.context), hstep.bound, Option.map_eq_none_iff]
      · rw [hstep.records id hid]
    · rw [← Option.map_eq_none_iff (f := Context.record), hstep.owner, Option.map_eq_none_iff]

end

/-- The records' keys, one by one. -/
theorem nodup_recordKeys {s : State} (w : s.records.wf) : s.records.keys.Nodup :=
  List.Pairwise.map _ (fun _ _ h => Nat.ne_of_lt h) w

theorem mem_recordKeys {s : State} {id : Nat} {r : Record} (h : s.records.get id = some r) :
    id ∈ s.records.keys := by
  rw [Table.mem_keys, h]
  rfl

theorem binds_of_inv {s : State} (h : s.BindInv) : Binds s.records s.contexts := by
  obtain ⟨tables, bound, binds⟩ := h
  intro k id
  constructor
  · rintro ⟨r, hr, hk⟩
    exact bound (id, r) (Table.get_some_mem hr) k hk
  · rintro ⟨c, hc, rfl⟩
    exact binds (k, c) (Table.get_some_mem hc)

/-! ### A context's step -/

/-- A context committed after another: a switch is counted (R131). -/
def committed (before after : Context) : Context :=
  if before.selected = after.selected then after
  else { after with switches := satSucc 65535 before.switches }

theorem commitContext_eq {s : State} {id k : Nat} {r : Record} (hr : s.records.get id = some r) (b a : Context) :
    s.commitContext id k b a = { s with
      contexts := s.contexts.put k (committed b a),
      records := if b.selected = a.selected then s.records else s.records.put id { r with pending := true },
      attention := if b.selected = a.selected then s.attention
        else postTo s.attention (.record id) .select } := by
  by_cases h : b.selected = a.selected
  · rw [commitContext_same h, committed, if_pos h, if_pos h, if_pos h]
  · rw [commitContext_switch h, committed, if_neg h, if_neg h, if_neg h, State.markPending, hr]
    rfl

section
variable {s : State} {id k : Nat} {r : Record} {b a : Context} (hr : s.records.get id = some r)
include hr

/-- The record after its context's step: pending where the source has switched. -/
theorem record_commitContext : (s.commitContext id k b a).records.get id =
    some { r with pending := r.pending || decide (b.selected ≠ a.selected) } := by
  rw [commitContext_eq hr]
  by_cases h : b.selected = a.selected
  · simp [h, hr]
  · simp [h]

theorem context_commitContext : (s.commitContext id k b a).contexts.get k = some (committed b a) := by
  rw [commitContext_eq hr]
  exact Table.get_put_same ..

theorem posted_commitContext {x : Subject} {d : Change} : Posted (s.commitContext id k b a).attention x d ↔
    Posted s.attention x d ∨ b.selected ≠ a.selected ∧ .record id = x ∧ .select = d := by
  rw [commitContext_eq hr]
  by_cases h : b.selected = a.selected
  · simp [h]
  · simp [h, posted_postTo]

theorem recordStep_commitContext (hk : s.contexts.get k = some b) (hb : b.record = id)
    (ha : a.record = b.record) : RecordStep id s (s.commitContext id k b a) where
  records j hj := by
    rw [commitContext_eq hr]
    dsimp only
    split
    · rfl
    · exact Table.get_put_ne _ _ hj
  bound := by
    rw [record_commitContext hr, hr]
    rfl
  contexts j hj := by
    rw [commitContext_eq hr]
    refine Table.get_put_ne _ _ ?_
    rintro rfl
    exact hj b hk hb
  owner j := by
    rw [commitContext_eq hr]
    dsimp only
    rw [Table.get_put]
    split
    case isTrue hj =>
      rw [hj, hk, Option.map_some, Option.map_some, ← ha, committed]
      split <;> rfl
    case isFalse => rfl
  posted x d hx := by
    rw [posted_commitContext hr]
    exact or_iff_left fun h => hx h.2.1.symm
  ports := by rw [commitContext_eq hr]

end

/-- A bound record finds its context. -/
theorem bound_context {u : State} (h : Binds u.records u.contexts) {id k : Nat} {r : Record}
    (hr : u.records.get id = some r) (hk : r.context = some k) :
    ∃ c, u.contexts.get k = some c ∧ c.record = id := (h k id).mp ⟨r, hr, hk⟩

/-! ### Wait-to-restore expiries (R139) -/

/-- A context's wait-to-restore timer runs out at this turn, on an ACTIVE or HELD record. -/
def WaitEnds (turn : Turn) (r : Record) (c : Context) : Prop :=
  c.request = .restoreWait ∧ (r.state = .active ∨ r.state = .held) ∧
    ((turn = .before ∧ c.wtrLeft = 1 ∧ c.wtrMark = .plain) ∨ (turn = .after ∧ c.wtrMark = .due))

section
variable {turn : Turn} {s : State} {id : Nat} {r : Record} (hr : s.records.get id = some r)
include hr

theorem inService_iff : s.inService id = true ↔ r.state = .active ∨ r.state = .held := by
  rw [State.inService, hr]
  simp

theorem waitEnds_iff {c : Context} : WaitEnds turn r c ↔
    c.request = .restoreWait ∧ timerReady c.wtrLeft c.wtrMark turn = true ∧ s.inService id = true := by
  rw [inService_iff hr, WaitEnds, and_congr_right_iff]
  intro _
  rw [and_comm, and_congr_left_iff]
  intro _
  cases turn <;> simp [timerReady]

theorem expireWait_unbound (hc : r.context = none) : s.expireWait turn id = s := by
  unfold State.expireWait State.contextOf
  rw [hr]
  dsimp only
  rw [hc]

variable {k : Nat} {c : Context} (hk : r.context = some k) (hc : s.contexts.get k = some c)
include hk hc

theorem expireWait_ends (h : WaitEnds turn r c) :
    s.expireWait turn id = s.commitContext id k c (c.enter .none .working) := by
  unfold State.expireWait
  rw [hr]
  dsimp only
  rw [contextOf_eq_some.mpr ⟨hk, hc⟩]
  exact if_pos ((waitEnds_iff hr).mp h)

theorem expireWait_stands (h : ¬ WaitEnds turn r c) : s.expireWait turn id = s := by
  unfold State.expireWait
  rw [hr]
  dsimp only
  rw [contextOf_eq_some.mpr ⟨hk, hc⟩]
  exact if_neg ((waitEnds_iff hr).not.mp h)

end

/-- The source switches back with the timer's end (R131, R139). -/
def SwitchesBack (turn : Turn) (r : Record) (c : Context) : Prop :=
  c.selected = .standby ∧ WaitEnds turn r c

section
variable {turn : Turn} {s : State} {id : Nat} {r : Record} {k : Nat} {c : Context}
  (hr : s.records.get id = some r) (hk : r.context = some k) (hc : s.contexts.get k = some c)
include hr hk hc

/-- The record's step, where the source switches. -/
theorem expireWait_switches (h : SwitchesBack turn r c) :
    (s.expireWait turn id).records.get id = some { r with pending := true } ∧
      Posted (s.expireWait turn id).attention (.record id) .select := by
  obtain ⟨hstandby, hends⟩ := h
  have hne : c.selected ≠ (c.enter .none .working).selected := by
    rw [hstandby]
    exact Selected.noConfusion
  rw [expireWait_ends hr hk hc hends, record_commitContext hr, posted_commitContext hr, decide_eq_true hne,
    Bool.or_true]
  exact ⟨rfl, .inr ⟨hne, rfl, rfl⟩⟩

/-- And where it does not: nothing of the record moves, and no SELECT is posted. -/
theorem expireWait_keeps (h : ¬ SwitchesBack turn r c) :
    (s.expireWait turn id).records.get id = some r ∧
      (Posted (s.expireWait turn id).attention (.record id) .select → Posted s.attention (.record id) .select) := by
  by_cases hends : WaitEnds turn r c
  · have hsame : c.selected = (c.enter .none .working).selected := by
      cases hsel : c.selected with
      | working => rfl
      | standby => exact absurd ⟨hsel, hends⟩ h
    rw [expireWait_ends hr hk hc hends, commitContext_same hsame]
    exact ⟨hr, fun h => h⟩
  · rw [expireWait_stands hr hk hc hends]
    exact ⟨hr, fun h => h⟩

theorem expireWait_context (h : WaitEnds turn r c) : (s.expireWait turn id).contexts.get k = some { c with
    request := .none, selected := .working, wtrLeft := 0, wtrMark := .plain,
    switches := if c.selected = .working then c.switches
      else if c.switches < 65535 then c.switches + 1 else c.switches } := by
  rw [expireWait_ends hr hk hc h, context_commitContext hr, committed]
  by_cases hsel : c.selected = .working
  · have hsame : c.selected = (c.enter .none .working).selected := hsel
    rw [if_pos hsame, if_pos hsel]
    rfl
  · have hmoves : c.selected ≠ (c.enter .none .working).selected := hsel
    rw [if_neg hmoves, if_neg hsel]
    rfl

end

theorem recordStep_expireWait (turn : Turn) {u : State} (id : Nat) (h : Binds u.records u.contexts) :
    RecordStep id u (u.expireWait turn id) := by
  cases hr : u.records.get id with
  | none =>
    have hno : u.expireWait turn id = u := by
      unfold State.expireWait
      rw [hr]
    rw [hno]
    exact .refl id u
  | some r =>
    cases hk : r.context with
    | none =>
      rw [expireWait_unbound hr hk]
      exact .refl id u
    | some k =>
      obtain ⟨c, hc, howner⟩ := bound_context h hr hk
      by_cases hends : WaitEnds turn r c
      · rw [expireWait_ends hr hk hc hends]
        exact recordStep_commitContext hr hc howner rfl
      · rw [expireWait_stands hr hk hc hends]
        exact .refl id u

theorem commitContext_frame (s : State) (id k : Nat) (b a : Context) : s.commitContext id k b a = { s with
    records := (s.commitContext id k b a).records, contexts := (s.commitContext id k b a).contexts,
    attention := (s.commitContext id k b a).attention } := by
  by_cases h : b.selected = a.selected
  · rw [commitContext_same h]
  · rw [commitContext_switch h]

theorem expireWait_frame (turn : Turn) (s : State) (id : Nat) : s.expireWait turn id = { s with
    records := (s.expireWait turn id).records, contexts := (s.expireWait turn id).contexts,
    attention := (s.expireWait turn id).attention } := by
  unfold State.expireWait
  split
  · rfl
  · split
    · rfl
    · split
      · exact commitContext_frame ..
      · rfl

/-- Steps that each reach the records, the contexts and the list alone reach no more in a sweep. -/
theorem sweep_frame {f : State → Nat → State} (hf : ∀ u id, f u id = { u with
      records := (f u id).records, contexts := (f u id).contexts, attention := (f u id).attention })
    (l : List Nat) (s : State) : l.foldl f s = { s with
      records := (l.foldl f s).records, contexts := (l.foldl f s).contexts,
      attention := (l.foldl f s).attention } := by
  refine foldl_preserves (P := fun u => u = { s with
    records := u.records, contexts := u.contexts, attention := u.attention }) (fun u id hu => ?_) l rfl
  have hstep := hf u id
  generalize f u id = v at hstep ⊢
  rw [hu] at hstep
  exact hstep

theorem exec_waitToRestoreExpiry (turn : Turn) (s : State) :
    exec (.waitToRestoreExpiry turn) s = .next (s.records.keys.foldl (State.expireWait turn) s) := rfl

/-- Settles O42, by each record's turn in the sweep. -/
theorem waitToRestoreExpiryReturnsToWorking : Obligations.WaitToRestoreExpiryReturnsToWorking := by
  intro turn s h
  have hbinds := binds_of_inv h
  have hf : ∀ u id, Binds u.records u.contexts → RecordStep id u (u.expireWait turn id) :=
    fun u id hu => recordStep_expireWait turn id hu
  have hkeys := sweep_keys hf s.records.keys hbinds
  have haround := fun id r (hr : s.records.get id = some r) =>
    sweep_around hf (nodup_recordKeys h.tables.records) (mem_recordKeys hr) hbinds
  refine ⟨_, exec_waitToRestoreExpiry turn s, sweep_frame (expireWait_frame turn) _ s, ?_⟩
  generalize s.records.keys.foldl (State.expireWait turn) s = t at hkeys haround
  refine ⟨fun id r switches hr hswitches => ?_, fun id => (hkeys.1 id).mpr, fun k => (hkeys.2 k).mpr,
    fun id r k c hr hk hc => ?_⟩
  · obtain ⟨u, -, hbefore, hafter⟩ := haround id r hr
    have hru : u.records.get id = some r := hbefore.record.trans hr
    rw [hafter.record]
    obtain hk | ⟨k, hk⟩ := Option.eq_none_or_eq_some r.context
    · have hnot : ¬ switches := fun h => by
        obtain ⟨k, -, hk', -⟩ := hswitches.mp h
        rw [hk] at hk'
        cases hk'
      rw [expireWait_unbound hru hk] at hafter ⊢
      exact ⟨fun h => absurd h hnot, fun _ => ⟨hru, fun e he hx hsel =>
        (hbefore.posted .select).mp ((hafter.posted .select).mp ⟨e, he, hx, hsel⟩)⟩⟩
    · obtain ⟨c, hc, howner⟩ := bound_context hbinds hr hk
      have hcu := hbefore.context k c hc howner
      have hiff : switches ↔ SwitchesBack turn r c := by
        rw [hswitches]
        constructor
        · rintro ⟨k', c', hk', hc', hsel, hends⟩
          obtain rfl : k = k' := Option.some.inj (hk.symm.trans hk')
          obtain rfl : c = c' := Option.some.inj (hc.symm.trans hc')
          exact ⟨hsel, hends⟩
        · rintro ⟨hsel, hends⟩
          exact ⟨k, c, hk, hc, hsel, hends⟩
      refine ⟨fun h => (expireWait_switches hru hk hcu (hiff.mp h)).1, fun h => ?_⟩
      obtain ⟨hrecord, hposted⟩ := expireWait_keeps hru hk hcu (hiff.not.mp h)
      exact ⟨hrecord, fun e he hx hsel => (hbefore.posted .select).mp
        (hposted ((hafter.posted .select).mp ⟨e, he, hx, hsel⟩))⟩
  · obtain ⟨u, -, hbefore, hafter⟩ := haround id r hr
    have hru : u.records.get id = some r := hbefore.record.trans hr
    obtain ⟨c', hc', howner⟩ := bound_context hbinds hr hk
    obtain rfl : c = c' := Option.some.inj (hc.symm.trans hc')
    have hcu := hbefore.context k c hc howner
    refine ⟨fun hwait hstate hturn => ?_, fun hnot => ?_⟩
    · have hends : WaitEnds turn r c := ⟨hwait, hstate, hturn⟩
      refine ⟨hafter.context k _ (expireWait_context hru hk hcu hends) howner, fun hsel => ?_⟩
      exact (hafter.posted .select).mpr (expireWait_switches hru hk hcu ⟨hsel, hends⟩).2
    · have hends : ¬ WaitEnds turn r c := by
        rintro ⟨hwait, hstate, hturn⟩
        obtain h | h | h | ⟨rfl, h⟩ | ⟨rfl, h⟩ := hnot
        · exact h hwait
        · rw [h] at hstate
          simp at hstate
        · rw [h] at hstate
          simp at hstate
        · simp at hturn
          exact h.elim (fun h => h hturn.1) (fun h => h hturn.2)
        · simp at hturn
          exact h hturn
      refine hafter.context k c ?_ howner
      rw [expireWait_stands hru hk hcu hends]
      exact hcu

end Sys2Proof.Proofs
end

section
/-! PROOFS. Connection supervision: one record's evaluation, with what it hands to its context
(O41, O43). -/

namespace Sys2Proof.Proofs

open Sys2Proof Sys2Proof.Machine

/-! ### The health machine and the crossings -/

theorem movesTo_move (holdOff clearTime : Byte) (defect : Bool) (h : Health) :
    Health.MovesTo holdOff clearTime defect h (h.move holdOff.toNat clearTime.toNat defect) := by
  obtain ⟨state, timer⟩ := h
  have hzero : ∀ b : Byte, b.toNat = 0 ↔ b = 0 := fun b =>
    ⟨fun h => BitVec.eq_of_toNat_eq h, fun h => by rw [h]; rfl⟩
  cases state <;> cases defect
  case clear.false => rfl
  case clear.true =>
    change if holdOff = 0 then startFail _ = _ else startFail _ = _
    simp only [startFail, hzero]
    by_cases h : holdOff = 0 <;> simp [h]
  case pendingFail.false => rfl
  case pendingFail.true =>
    change if timer ≤ 1 then ite .. = _ else ite .. = _
    by_cases h : timer ≤ 1 <;> simp [h]
  case failed.false =>
    change if clearTime = 0 then startClear _ = _ else startClear _ = _
    simp only [startClear, hzero]
    by_cases h : clearTime = 0 <;> simp [h, Config.clearUnitIntervals]
  case failed.true => rfl
  case pendingClear.false =>
    change if timer ≤ 1 then ite .. = _ else ite .. = _
    by_cases h : timer ≤ 1 <;> simp [h]
  case pendingClear.true => rfl

theorem defectAt_eq (s : State) (p : PortNo) : s.defectAt p = decide (s.ports[p].sourceDefect ≠ .none) := by
  unfold State.defectAt
  generalize s.ports[p].sourceDefect = d
  cases d <;> rfl

/-- An evaluated direction has moved by the table, on the defect of its source end's port. -/
theorem movesTo_moved (s : State) (r : Record) (h : Health) (e : End) :
    Health.MovesTo r.holdOff r.clearTime (decide (s.ports[e.port].sourceDefect ≠ .none)) h (s.moved r h e) := by
  rw [← defectAt_eq]
  exact movesTo_move ..

theorem crossed_iff {a b : Health} : crossed a b = true ↔ a.bad ≠ b.bad := bne_iff_ne

theorem crossedOpt_iff {a b : Option Health} :
    crossedOpt a b = true ↔ ∃ h h', a = some h ∧ b = some h' ∧ h.bad ≠ h'.bad := by
  cases a with
  | none => simp [crossedOpt]
  | some h =>
    cases b with
    | none => simp [crossedOpt]
    | some h' => simp [crossedOpt, crossed]

theorem anyCrossed_iff {r r' : Record} : r.anyCrossed r' = true ↔ r.healthAB.bad ≠ r'.healthAB.bad ∨
    (∃ h h', r.healthBA = some h ∧ r'.healthBA = some h' ∧ h.bad ≠ h'.bad) ∨
    ∃ h h', r.healthS = some h ∧ r'.healthS = some h' ∧ h.bad ≠ h'.bad := by
  rw [Record.anyCrossed, Bool.or_eq_true, Bool.or_eq_true, crossed_iff, crossedOpt_iff, crossedOpt_iff, or_assoc]

/-! ### The record evaluated -/

/-- The ports alone judge. -/
theorem evaluated_congr {s u : State} (h : u.ports = s.ports) (r : Record) : u.evaluated r = s.evaluated r := by
  simp only [State.evaluated, State.moved, State.defectAt, h]

section
variable (s : State) {r : Record}

theorem healthBA_none (h : r.healthBA = none) : (s.evaluated r).healthBA = none := by
  unfold State.evaluated
  rw [h]

theorem healthBA_some {a : Health} {d : Dest} {rest : List Dest} (h : r.healthBA = some a)
    (hd : r.dests = d :: rest) : (s.evaluated r).healthBA = some (s.moved r a d.dest) := by
  unfold State.evaluated
  rw [h, hd]
  rfl

theorem healthS_none (h : r.healthS = none) : (s.evaluated r).healthS = none := by
  unfold State.evaluated
  rw [h]

theorem healthS_some {a : Health} {e : End} (h : r.healthS = some a) (he : r.standby = some e) :
    (s.evaluated r).healthS = some (s.moved r a e) := by
  unfold State.evaluated
  rw [h, he]

theorem healthS_unread {a : Health} (h : r.healthS = some a) (he : r.standby = none) :
    (s.evaluated r).healthS = some a := by
  unfold State.evaluated
  rw [h, he]

variable (r)

/-- The standby crosses where it goes bad or good. -/
theorem crossed_standby : crossedOpt r.healthS (s.evaluated r).healthS =
    (r.standbyBad != (s.evaluated r).standbyBad) := by
  unfold Record.standbyBad
  cases h : r.healthS with
  | none =>
    rw [healthS_none s h]
    rfl
  | some a =>
    cases he : r.standby with
    | none =>
      rw [healthS_unread s h he]
      rfl
    | some e =>
      rw [healthS_some s h he]
      rfl

end

/-! ### What is handed to the context (R116, R117) -/

/-- A hand-over: at the first one a fail where the source is bad, and afterwards each change. -/
def handedOver (due before after : Bool) : Option Bool :=
  if due = true ∧ after = true then some true
  else if due = false ∧ before ≠ after then some after else none

theorem standbyRequest_eq {r r' : Record}
    (h : crossedOpt r.healthS r'.healthS = (r.standbyBad != r'.standbyBad)) :
    r.standbyRequest r' = handedOver r.handOverDue r.standbyBad r'.standbyBad := by
  rw [Record.standbyRequest, h, handedOver]
  cases r.handOverDue <;> cases r.standbyBad <;> cases r'.standbyBad <;> rfl

theorem workingRequest_eq (r r' : Record) :
    r.workingRequest r' = handedOver r.handOverDue r.healthAB.bad r'.healthAB.bad := by
  rw [Record.workingRequest, crossed, handedOver]
  cases r.handOverDue <;> cases r.healthAB.bad <;> cases r'.healthAB.bad <;> rfl

/-- The re-evaluation with its fields written out (R135). -/
theorem reevaluate_fields (c : Context) (workingBad standbyBad : Bool) :
    c.reevaluate workingBad standbyBad =
      if standbyBad then
        { c with request := .failStandby, selected := .working, wtrLeft := 0, wtrMark := .plain }
      else if workingBad then
        { c with request := .failWorking, selected := .standby, wtrLeft := 0, wtrMark := .plain }
      else
        { c with request := .none, wtrLeft := 0, wtrMark := .plain,
                 selected := if c.mode = .revertive then .working else c.selected } := by
  obtain ⟨record, mode, wtrTime, request, selected, wtrLeft, wtrMark, switches⟩ := c
  unfold Context.reevaluate
  cases mode <;> rfl

theorem workingCleared_fields (c : Context) (turn : Turn) : c.workingCleared turn =
    if c.mode = .revertive then
      { c with request := .restoreWait, selected := .standby, wtrLeft := c.wtrTime.toNat * 80000,
               wtrMark := if turn = .before then .fresh else .plain }
    else { c with request := .none, selected := .standby, wtrLeft := 0, wtrMark := .plain } := by
  obtain ⟨record, mode, wtrTime, request, selected, wtrLeft, wtrMark, switches⟩ := c
  unfold Context.workingCleared
  cases mode <;> cases turn <;> rfl

/-! ### One record's turn -/

/-- The record as its evaluation leaves it, before its context's step. -/
def supervised (s : State) (r : Record) : Record :=
  { s.evaluated r with
    pending := r.pending || r.anyCrossed (s.evaluated r), handOverDue := false }

/-- The record's evaluation with its posting, before its context's step. -/
def supervise (s : State) (id : Nat) (r : Record) : State :=
  (s.setRecord id (supervised s r)).postIf (r.anyCrossed (s.evaluated r)) (.record id) .health

/-- The context as the fails handed to it leave it. -/
def failsTaken (s : State) (turn : Turn) (r : Record) (c : Context) : Context :=
  c.takeFails turn (s.evaluated r).healthAB.bad (s.evaluated r).standbyBad
    (r.standbyRequest (s.evaluated r)) (r.workingRequest (s.evaluated r))

section
variable {turn : Turn} {s : State} {id : Nat} {r : Record} (hr : s.records.get id = some r)

theorem record_supervise : (supervise s id r).records.get id = some (supervised s r) := by
  unfold supervise
  cases r.anyCrossed (s.evaluated r)
  all_goals exact Table.get_put_same ..

theorem contexts_supervise : (supervise s id r).contexts = s.contexts := by
  unfold supervise
  cases r.anyCrossed (s.evaluated r)
  all_goals rfl

theorem ports_supervise : (supervise s id r).ports = s.ports := by
  unfold supervise
  cases r.anyCrossed (s.evaluated r)
  all_goals rfl

theorem posted_supervise {x : Subject} {d : Change} : Posted (supervise s id r).attention x d ↔
    Posted s.attention x d ∨ r.anyCrossed (s.evaluated r) = true ∧ .record id = x ∧ .health = d :=
  posted_postIf

include hr

theorem recordStep_supervise : RecordStep id s (supervise s id r) where
  records j hj := by
    unfold supervise
    cases r.anyCrossed (s.evaluated r)
    all_goals exact Table.get_put_ne _ _ hj
  bound := by
    rw [record_supervise, hr]
    rfl
  contexts k _ := by rw [contexts_supervise]
  owner k := by rw [contexts_supervise]
  posted x d hx := by
    rw [posted_supervise]
    exact or_iff_left fun h => hx h.2.1.symm
  ports := ports_supervise

theorem evaluateRecord_idle (h : r.state = .staged ∨ r.state = .retiring) : s.evaluateRecord turn id = s := by
  have hnot : ¬ (r.state = .active ∨ r.state = .held) := by
    obtain h | h := h <;> rw [h] <;> decide
  unfold State.evaluateRecord
  rw [hr]
  exact if_neg hnot

theorem evaluateRecord_served (h : r.state = .active ∨ r.state = .held) :
    s.evaluateRecord turn id = (supervise s id r).handFails turn id r (s.evaluated r) := by
  unfold State.evaluateRecord
  rw [hr]
  exact if_pos h

theorem evaluateRecord_unbound (h : r.state = .active ∨ r.state = .held) (hk : r.context = none) :
    s.evaluateRecord turn id = supervise s id r := by
  rw [evaluateRecord_served hr h]
  unfold State.handFails State.contextOf
  rw [hk]

variable {k : Nat} {c : Context} (hk : r.context = some k) (hc : s.contexts.get k = some c)
include hk hc

theorem evaluateRecord_bound (h : r.state = .active ∨ r.state = .held) : s.evaluateRecord turn id =
    (supervise s id r).commitContext id k c (failsTaken s turn r c) := by
  have hbound : (supervise s id r).contextOf r = some (k, c) := by
    rw [contextOf_eq_some, contexts_supervise]
    exact ⟨hk, hc⟩
  rw [evaluateRecord_served hr h]
  unfold State.handFails
  rw [hbound]
  rfl

end

theorem recordStep_evaluateRecord (turn : Turn) {u : State} (id : Nat) (h : Binds u.records u.contexts) :
    RecordStep id u (u.evaluateRecord turn id) := by
  cases hr : u.records.get id with
  | none =>
    have hno : u.evaluateRecord turn id = u := by
      unfold State.evaluateRecord
      rw [hr]
    rw [hno]
    exact .refl id u
  | some r =>
    by_cases hstate : r.state = .active ∨ r.state = .held
    · cases hk : r.context with
      | none =>
        rw [evaluateRecord_unbound hr hstate hk]
        exact recordStep_supervise hr
      | some k =>
        obtain ⟨c, hc, howner⟩ := bound_context h hr hk
        rw [evaluateRecord_bound hr hk hc hstate]
        refine (recordStep_supervise hr).trans
          (recordStep_commitContext record_supervise ?_ howner (record_takeFails ..))
        rw [contexts_supervise]
        exact hc
    · have hidle : r.state = .staged ∨ r.state = .retiring := by
        cases hs : r.state <;> simp_all
      rw [evaluateRecord_idle hr hidle]
      exact .refl id u

theorem evaluateRecord_frame (turn : Turn) (s : State) (id : Nat) : s.evaluateRecord turn id = { s with
    records := (s.evaluateRecord turn id).records, contexts := (s.evaluateRecord turn id).contexts,
    attention := (s.evaluateRecord turn id).attention } := by
  cases hr : s.records.get id with
  | none =>
    unfold State.evaluateRecord
    rw [hr]
  | some r =>
    have hsupervise : supervise s id r = { s with
        records := (supervise s id r).records, contexts := (supervise s id r).contexts,
        attention := (supervise s id r).attention } := by
      unfold supervise
      cases r.anyCrossed (s.evaluated r)
      all_goals rfl
    by_cases hstate : r.state = .active ∨ r.state = .held
    · rw [evaluateRecord_served hr hstate]
      generalize supervise s id r = u at hsupervise
      unfold State.handFails
      split
      case h_1 k c _ =>
        refine (commitContext_frame u id k c _).trans ?_
        rw [hsupervise]
      case h_2 => exact hsupervise
    · unfold State.evaluateRecord
      rw [hr]
      dsimp only
      rw [if_neg hstate]

/-- What an evaluation leaves of a record in service (R107, R114). -/
structure Evaluates (s : State) (r r' : Record) : Prop where
  fields : r' = { s.evaluated r with
    pending := r'.pending, handOverDue := false }
  crossing : r.anyCrossed r' = true → r'.pending = true
  stands : r.anyCrossed r' = false → r.context = none → r'.pending = r.pending

theorem Evaluates.anyCrossed {s : State} {r r' : Record} (h : Evaluates s r r') :
    r.anyCrossed r' = r.anyCrossed (s.evaluated r) := by
  rw [h.fields]
  rfl

section
variable {s : State} {r r' : Record} (h : Evaluates s r r')
include h

theorem Evaluates.healthAB : r'.healthAB = (s.evaluated r).healthAB := by
  rw [h.fields]

theorem Evaluates.healthBA : r'.healthBA = (s.evaluated r).healthBA := by
  rw [h.fields]

theorem Evaluates.healthS : r'.healthS = (s.evaluated r).healthS := by
  rw [h.fields]

end

theorem evaluates_supervised {s : State} {r : Record} (b : Bool) (h : r.context = none → b = false) :
    Evaluates s r { supervised s r with pending := (supervised s r).pending || b } where
  fields := rfl
  crossing hcross := by
    have hcross' : r.anyCrossed (s.evaluated r) = true := hcross
    simp [supervised, hcross']
  stands hcross hnone := by
    have hcross' : r.anyCrossed (s.evaluated r) = false := hcross
    simp [supervised, hcross', h hnone]

section
variable {turn : Turn} {s : State} {id : Nat} {r : Record} (hr : s.records.get id = some r)
  (h : r.state = .active ∨ r.state = .held)
include hr h

theorem evaluateRecord_evaluates (hb : Binds s.records s.contexts) :
    ∃ r', (s.evaluateRecord turn id).records.get id = some r' ∧ Evaluates s r r' := by
  cases hk : r.context with
  | none =>
    rw [evaluateRecord_unbound hr h hk, record_supervise]
    refine ⟨_, rfl, ?_⟩
    have hrecord := evaluates_supervised (s := s) (r := r) false fun _ => rfl
    rwa [Bool.or_false] at hrecord
  | some k =>
    obtain ⟨c, hc, -⟩ := bound_context hb hr hk
    rw [evaluateRecord_bound hr hk hc h, record_commitContext record_supervise]
    refine ⟨_, rfl, evaluates_supervised _ fun hnone => ?_⟩
    rw [hk] at hnone
    cases hnone

/-- HEALTH is posted where a direction has crossed, and there alone. -/
theorem evaluateRecord_posted (hb : Binds s.records s.contexts) :
    Posted (s.evaluateRecord turn id).attention (.record id) .health ↔
      Posted s.attention (.record id) .health ∨ r.anyCrossed (s.evaluated r) = true := by
  have hsupervise : Posted (supervise s id r).attention (.record id) .health ↔
      Posted s.attention (.record id) .health ∨ r.anyCrossed (s.evaluated r) = true := by
    rw [posted_supervise]
    simp
  cases hk : r.context with
  | none => rw [evaluateRecord_unbound hr h hk, hsupervise]
  | some k =>
    obtain ⟨c, hc, -⟩ := bound_context hb hr hk
    rw [evaluateRecord_bound hr hk hc h, posted_commitContext record_supervise, hsupervise]
    exact or_iff_left fun hselect => Change.noConfusion hselect.2.2

end

/-! ### The evaluation step -/

theorem exec_supervisionIntervalExpiry {turn : Turn} {s : State} (h : s.interval.ready 80 turn = true) :
    exec (.supervisionIntervalExpiry turn) s =
      .next { (s.records.keys.foldl (State.evaluateRecord turn) s) with interval := s.interval.take turn } :=
  if_pos h

/-- Each record's turn in the evaluation step. -/
theorem evaluation_around {turn : Turn} {s : State} (h : s.BindInv) {id : Nat} {r : Record}
    (hr : s.records.get id = some r) : ∃ u : State, Binds u.records u.contexts ∧ Untouched id s u ∧
      Untouched id (u.evaluateRecord turn id) (s.records.keys.foldl (State.evaluateRecord turn) s) :=
  sweep_around (fun _ id hu => recordStep_evaluateRecord turn id hu) (nodup_recordKeys h.tables.records)
    (mem_recordKeys hr) (binds_of_inv h)

/-- A record in service after the evaluation step. -/
theorem evaluation_evaluates {turn : Turn} {s : State} (h : s.BindInv) {id : Nat} {r : Record}
    (hr : s.records.get id = some r) (hstate : r.state = .active ∨ r.state = .held) :
    ∃ r', (s.records.keys.foldl (State.evaluateRecord turn) s).records.get id = some r' ∧ Evaluates s r r' ∧
      (Posted (s.records.keys.foldl (State.evaluateRecord turn) s).attention (.record id) .health ↔
        Posted s.attention (.record id) .health ∨ r.anyCrossed r' = true) := by
  obtain ⟨u, hu, hbefore, hafter⟩ := evaluation_around (turn := turn) h hr
  have hru : u.records.get id = some r := hbefore.record.trans hr
  obtain ⟨r', hr', hev⟩ := evaluateRecord_evaluates (turn := turn) hru hstate hu
  have hposted := evaluateRecord_posted (turn := turn) hru hstate hu
  rw [← hev.anyCrossed, hbefore.posted] at hposted
  refine ⟨r', hafter.record.trans hr', ⟨?_, hev.crossing, hev.stands⟩, (hafter.posted .health).trans hposted⟩
  rw [← evaluated_congr hbefore.ports]
  exact hev.fields

/-- Settles O43, by each record's turn in the sweep. -/
theorem evaluationMovesHealth : Obligations.EvaluationMovesHealth := by
  intro turn s h hready
  refine ⟨_, exec_supervisionIntervalExpiry hready, ?_, ?_, ?_⟩
  · have hframe := sweep_frame (evaluateRecord_frame turn) s.records.keys s
    generalize s.records.keys.foldl (State.evaluateRecord turn) s = u at hframe ⊢
    rw [hframe]
  · exact fun id => ((sweep_keys (fun u id hu => recordStep_evaluateRecord turn id hu) s.records.keys
      (binds_of_inv h)).1 id).mpr
  · intro id r hr
    by_cases hstate : r.state = .active ∨ r.state = .held
    · obtain ⟨r', hr', hev, hposted⟩ := evaluation_evaluates (turn := turn) h hr hstate
      refine ⟨r', hr', fun hidle => ?_, fun _ crossing hcrossing => ?_⟩
      · obtain hs | hs := hstate <;> rw [hs] at hidle <;> simp at hidle
      · rw [← anyCrossed_iff] at hcrossing
        have hAB : r'.healthAB = s.moved r r.healthAB r.source := hev.healthAB
        have hBA : r'.healthBA = (s.evaluated r).healthBA := hev.healthBA
        have hS : r'.healthS = (s.evaluated r).healthS := hev.healthS
        refine ⟨?_, ?_, ?_, ?_, ?_, ?_, ?_, ?_⟩
        · rw [hAB, hBA, hS]
          exact hev.fields
        · rw [hAB]
          exact movesTo_moved ..
        · exact fun hnone => hBA.trans (healthBA_none s hnone)
        · exact fun hnone => hS.trans (healthS_none s hnone)
        · exact fun a d rest ha hd => ⟨_, hBA.trans (healthBA_some s ha hd), movesTo_moved ..⟩
        · exact fun a e ha he => ⟨_, hS.trans (healthS_some s ha he), movesTo_moved ..⟩
        · intro hcross
          exact ⟨hev.crossing (hcrossing.mp hcross), hposted.mpr (.inr (hcrossing.mp hcross))⟩
        · intro hcross
          have hno : ¬ r.anyCrossed r' = true := hcrossing.not.mp hcross
          refine ⟨hev.stands (Bool.eq_false_of_not_eq_true hno), fun e he hx hhealth => ?_⟩
          exact (hposted.mp ⟨e, he, hx, hhealth⟩).resolve_right hno
    · obtain ⟨u, -, hbefore, hafter⟩ := evaluation_around (turn := turn) h hr
      have hidle : r.state = .staged ∨ r.state = .retiring := by
        cases hs : r.state <;> simp_all
      rw [evaluateRecord_idle (hbefore.record.trans hr) hidle] at hafter
      exact ⟨r, hafter.record.trans (hbefore.record.trans hr), fun _ => rfl, fun h => absurd h hstate⟩

/-- Settles O41, by the record's turn in the sweep. -/
theorem failRequestsMoveContext : Obligations.FailRequestsMoveContext := by
  intro turn s t id k r r' c c1 c2 sb wk h hready hexec hr hstate hk hc hr' hsb hwk hc1 hc2
  obtain rfl := Host.Outcome.next.inj ((exec_supervisionIntervalExpiry hready).symm.trans hexec)
  obtain ⟨c', hc', howner⟩ := bound_context (binds_of_inv h) hr hk
  obtain rfl : c = c' := Option.some.inj (hc.symm.trans hc')
  obtain ⟨r'', hr'', hev, -⟩ := evaluation_evaluates (turn := turn) h hr hstate
  obtain rfl : r' = r'' := Option.some.inj (hr'.symm.trans hr'')
  have hAB : r'.healthAB = (s.evaluated r).healthAB := hev.healthAB
  have hS : r'.standbyBad = (s.evaluated r).standbyBad := by
    rw [Record.standbyBad, hev.healthS, Record.standbyBad]
  rw [hS] at hsb hc1
  rw [hAB] at hwk hc1
  have hstandby : sb = r.standbyRequest (s.evaluated r) := hsb.trans (standbyRequest_eq (crossed_standby s r)).symm
  have hworking : wk = r.workingRequest (s.evaluated r) := hwk.trans (workingRequest_eq r _).symm
  have htaken1 : c1 = sb.elim c (c.takeStandby (s.evaluated r).healthAB.bad (s.evaluated r).standbyBad) := by
    refine hc1.trans ?_
    unfold Context.takeStandby
    rw [reevaluate_fields]
    cases sb with
    | none => rfl
    | some fail => cases fail <;> cases c.request <;> rfl
  have htaken2 : c2 = wk.elim c1 (c1.takeWorking turn) := by
    refine hc2.trans ?_
    unfold Context.takeWorking
    rw [workingCleared_fields]
    cases wk with
    | none => rfl
    | some fail => cases fail <;> cases c1.request <;> rfl
  have htaken : failsTaken s turn r c = c2 := by
    rw [htaken2, htaken1, hstandby, hworking]
    rfl
  obtain ⟨u, -, hbefore, hafter⟩ := evaluation_around (turn := turn) h hr
  have hru : u.records.get id = some r := hbefore.record.trans hr
  have hcu : u.contexts.get k = some c := hbefore.context k c hc howner
  have htakenu : failsTaken u turn r c = c2 := by
    rw [← htaken, failsTaken, evaluated_congr hbefore.ports]
    rfl
  have howner2 : c2.record = id := by
    rw [← htaken]
    exact (record_takeFails ..).trans howner
  have hturn := evaluateRecord_bound (turn := turn) hru hk hcu hstate
  rw [htakenu] at hturn
  have hcontext : (u.evaluateRecord turn id).contexts.get k = some (committed c c2) := by
    rw [hturn]
    exact context_commitContext record_supervise
  refine ⟨fun hsame => ?_, fun hmoves => ⟨?_, ?_, ?_⟩⟩
  · rw [committed, if_pos hsame.symm] at hcontext
    exact hafter.context k c2 hcontext howner2
  · rw [committed, if_neg (Ne.symm hmoves)] at hcontext
    exact hafter.context k _ hcontext howner2
  · have hrecord := hafter.record
    rw [hr', hturn, record_commitContext record_supervise, decide_eq_true (Ne.symm hmoves), Bool.or_true] at hrecord
    exact congrArg Record.pending (Option.some.inj hrecord)
  · refine (hafter.posted .select).mpr ?_
    rw [hturn]
    exact (posted_commitContext record_supervise).mpr (.inr ⟨Ne.symm hmoves, rfl, rfl⟩)

end Sys2Proof.Proofs
end

section
/-! PROOFS. The arbiter's turns and the placing of the response (O53). -/

namespace Sys2Proof.Proofs

open Sys2Proof Sys2Proof.Machine

theorem nextPort_none {s : State} (hm : s.portM.txn ≠ .waiting) (hs : s.portS.txn ≠ .waiting) :
    s.nextPort = none := by
  rw [State.nextPort, if_neg hm, if_neg hs]

/-- The port whose turn it is: it waits, and the other was served last or does not wait (R178). -/
theorem nextPort_turn {s : State} {p : MPortId} (h : (s.mport p).txn = .waiting)
    (hturn : s.lastServed ≠ p ∨ ∀ o, o ≠ p → (s.mport o).txn ≠ .waiting) : s.nextPort = some p := by
  by_cases hother : ∀ o, o ≠ p → (s.mport o).txn ≠ .waiting
  · cases p with
    | m =>
      have hs : s.portS.txn ≠ .waiting := hother .s MPortId.noConfusion
      rw [State.nextPort, if_pos (show s.portM.txn = .waiting from h), if_neg hs]
    | s =>
      have hm : s.portM.txn ≠ .waiting := hother .m MPortId.noConfusion
      rw [State.nextPort, if_neg hm, if_pos (show s.portS.txn = .waiting from h)]
  · have hlast : s.lastServed ≠ p := hturn.resolve_right hother
    have hboth : s.portM.txn = .waiting ∧ s.portS.txn = .waiting := by
      obtain ⟨o, ho, hwaits⟩ : ∃ o, o ≠ p ∧ (s.mport o).txn = .waiting := by
        simpa using hother
      cases p <;> cases o
      case m.m | s.s => exact absurd rfl ho
      case m.s => exact ⟨h, hwaits⟩
      case s.m => exact ⟨hwaits, h⟩
    rw [State.nextPort, if_pos hboth.1, if_pos hboth.2]
    cases p <;> cases hl : s.lastServed
    case m.m | s.s => exact absurd hl hlast
    all_goals rfl

theorem exec_handOver_turn {s : State} {p : MPortId} (hx : s.executor = none) (hp : s.nextPort = some p) :
    exec .handOver s = .next (s.handOn p) := by
  change execHandOver s = _
  unfold execHandOver
  rw [hx, hp]

theorem exec_handOver_waits {s : State} (h : s.executor.isSome = true ∨ s.nextPort = none) :
    exec .handOver s = .next s := by
  change execHandOver s = _
  unfold execHandOver
  obtain h | h := h
  · obtain ⟨x, hx⟩ := Option.isSome_iff_exists.mp h
    rw [hx]
  · rw [h]
    cases s.executor <;> rfl

theorem handOn_frame (s : State) (p : MPortId) : s.handOn p = { s with
    portM := (s.handOn p).portM, portS := (s.handOn p).portS, executor := (s.handOn p).executor,
    lastServed := (s.handOn p).lastServed } := by
  cases p <;> rfl

theorem mport_handOn_same (s : State) (p : MPortId) :
    (s.handOn p).mport p = { s.mport p with txn := .executing, request := [] } :=
  mport_setMport_same s p _

theorem mport_handOn_ne (s : State) {p o : MPortId} (h : o ≠ p) : (s.handOn p).mport o = s.mport o :=
  mport_setMport_ne s _ h

theorem exec_responsePlaced_free {s : State} (h : s.executor = none) : exec .responsePlaced s = .next s := by
  change execResponsePlaced s = _
  unfold execResponsePlaced
  rw [h]

section
variable {s : State} {x : Execution} (hx : s.executor = some x)
include hx

theorem exec_responsePlaced_unanswered (h : x.answer = none) : exec .responsePlaced s = .next s := by
  change execResponsePlaced s = _
  unfold execResponsePlaced
  rw [hx]
  dsimp only
  rw [h]

theorem exec_responsePlaced_answered {a : Answer} (h : x.answer = some a) :
    exec .responsePlaced s = .next (s.place x a) := by
  change execResponsePlaced s = _
  unfold execResponsePlaced
  rw [hx]
  dsimp only
  rw [h]

end

/-- Settles O53. -/
theorem requestsAreHandedOnInTurnAndAnswered : Obligations.RequestsAreHandedOnInTurnAndAnswered := by
  refine ⟨fun s => ⟨?_, ?_⟩, fun s => ⟨exec_responsePlaced_free, ?_, ?_⟩⟩
  · rintro (hbusy | ⟨hm, hs⟩)
    · exact exec_handOver_waits (.inl hbusy)
    · exact exec_handOver_waits (.inr (nextPort_none hm hs))
  · intro p hx hwaits hturn
    refine ⟨_, execution p (s.mport p).request, exec_handOver_turn hx (nextPort_turn hwaits hturn), rfl,
      mport_handOn_same s p, fun o ho => mport_handOn_ne s ho, rfl, rfl, rfl, rfl, rfl, ?_, ?_, handOn_frame s p⟩
    · intro i hi
      rw [execution, hi]
      rfl
    · intro hi
      rw [execution, hi]
      rfl
  · exact fun x hx ha => exec_responsePlaced_unanswered hx ha
  · intro x a hx ha
    refine ⟨_, exec_responsePlaced_answered hx ha, mport_setMport_same s x.port _,
      fun o ho => mport_setMport_ne s _ ho, ?_⟩
    unfold State.place
    cases x.port <;> rfl

end Sys2Proof.Proofs
end

section
/-! PROOFS. What the management ports send: the status byte, the response, and the reads of each bus
(O52). -/

namespace Sys2Proof.Proofs

open Sys2Proof Sys2Proof.Machine

/-! ### A free bus -/

/-- No transaction runs on a port's bus, or a status read alone. -/
def BusIdle (b : Bus) : Prop := b = .free ∨ ∃ k, b = .status k

/-- A transaction runs on a port's bus, or is missed. -/
def BusTaken (b : Bus) : Prop :=
  (∃ taken shift, b = .writing taken shift) ∨ (∃ live k, b = .reading live k) ∨ b = .missed

theorem isFree_iff {b : Bus} : b.isFree = true ↔ BusIdle b := by
  cases b <;> simp [BusIdle, Bus.isFree]

theorem isFree_idle {b : Bus} (h : BusIdle b) : b.isFree = true := isFree_iff.mpr h

theorem isFree_taken {b : Bus} (h : BusTaken b) : b.isFree = false := by
  obtain ⟨taken, shift, rfl⟩ | ⟨live, k, rfl⟩ | rfl := h <;> rfl

theorem busFree_idle {s : State} {p : MPortId} (hr : s.rst = false) (h : BusIdle (s.mport p).bus) :
    s.busFree p = true :=
  busFree_iff.mpr ⟨hr, isFree_idle h⟩

theorem busFree_taken {s : State} {p : MPortId} (h : s.rst = true ∨ BusTaken (s.mport p).bus) :
    s.busFree p = false := by
  unfold State.busFree
  obtain h | h := h
  · rw [h]
    rfl
  · rw [isFree_taken h, Bool.and_false]

/-! ### The status byte (R177, R188) -/

theorem statusByte_eq (s : State) (p : MPortId) : s.statusByte p = (s.mport p).txn.number +
    (if (s.mport p).refused then 8 else 0) + (if s.attention = [] then 0 else 16) +
    (if s.ref.state = .freewheel then 32 else 0) := by
  have hattention : flagBit (!s.attention.isEmpty) 16 = if s.attention = [] then (0 : Byte) else 16 := by
    cases s.attention <;> rfl
  have hreference : flagBit (s.ref.state == .freewheel) 32 =
      if s.ref.state = .freewheel then (32 : Byte) else 0 := by
    cases s.ref.state <;> rfl
  rw [State.statusByte, hattention, hreference]
  rfl

theorem statusByte_setMport (s : State) (p : MPortId) (x : MPort) : (s.setMport p x).statusByte p = x.txn.number +
    (if x.refused then 8 else 0) + (if s.attention = [] then 0 else 16) +
    (if s.ref.state = .freewheel then 32 else 0) := by
  rw [statusByte_eq, mport_setMport_same, attention_setMport, ref_setMport]

/-- Copies that clear REFUSED: the first shows it as it stood (R177). -/
theorem statusRead_eq (s : State) (p : MPortId) (count : Nat) : s.statusRead p count =
    s.setMport p { s.mport p with
      refused := (s.mport p).refused && decide (count = 0),
      sent := (s.mport p).sent ++ (List.range count).map fun k => if k = 0 then s.statusByte p else
        (s.setMport p { s.mport p with refused := false }).statusByte p } := by
  cases count with
  | zero =>
    simp only [State.statusRead, decide_true, Bool.and_true, List.range_zero, List.map_nil, List.append_nil]
    exact (setMport_self s p).symm
  | succ k =>
    have hfirst : (List.range (k + 1)).map (fun j => if j = 0 then s.statusByte p else
        (s.setMport p { s.mport p with refused := false }).statusByte p) =
        [s.statusByte p] ++ List.replicate k ((s.setMport p { s.mport p with refused := false }).statusByte p) := by
      rw [List.range_succ_eq_map, List.map_cons, List.map_map, if_pos rfl]
      refine congrArg (_ :: ·) (List.ext_getElem (by simp) fun i hi hi' => ?_)
      simp
    have hcleared : ((s.mport p).refused && decide (k + 1 = 0)) = false := by simp
    rw [State.statusRead, statusCopies_eq, mport_setMport_same, setMport_setMport, statusCopies_eq,
      mport_setMport_same, setMport_setMport, hfirst, hcleared, List.append_assoc]
    simp only [statusByte_setMport, setMport_setMport, List.replicate_one]

/-! ### The response -/

theorem getElem?_readBytes (x : MPort) (live : Bool) (first : Nat) {count k : Nat} (h : k < count) :
    (x.readBytes live first count)[k]? =
      some (if live = true ∧ first + k < x.response.length then x.response.getD (first + k) 0 else 0) := by
  rw [MPort.readBytes, List.getElem?_map, List.getElem?_range h, Option.map_some]
  cases live with
  | false => rfl
  | true =>
    rw [if_pos rfl]
    by_cases hin : first + k < x.response.length
    · exact congrArg some (if_pos ⟨rfl, hin⟩).symm
    · rw [List.getD_eq_default _ _ (Nat.le_of_not_lt hin)]
      exact congrArg some (if_neg fun h => hin h.2).symm

theorem read_eq {x : MPort} {live : Bool} (count : Nat) (h : live = true ↔ x.txn = .answered) :
    x.read count = { x with bus := .reading live count, sent := x.readBytes live 0 ((count + 7) / 8) } := by
  have hlive : (x.txn == .answered) = live := by
    rw [Bool.eq_iff_iff, h, beq_iff_eq]
  have hbegun : bytesBegun 0 count = (count + 7) / 8 := by
    simp only [bytesBegun]
    omega
  unfold MPort.read
  rw [hlive, hbegun]

theorem bytesBegun_eq (had more : Nat) : bytesBegun had more = (had + more + 7) / 8 - (had + 7) / 8 := rfl

/-! ### The parts of a read -/

section
variable {s : State} {p : MPortId}

theorem readPart_begins (h : s.busFree p = true) (count : Nat) :
    s.readPart p (.begins count) = s.setMport p ((s.mport p).read count) :=
  if_pos h

theorem readPart_busy (h : s.busFree p = false) (count : Nat) : s.readPart p (.begins count) = s :=
  if_neg (by rw [h]; exact Bool.false_ne_true)

theorem readPart_further {live : Bool} {k : Nat} (h : (s.mport p).bus = .reading live k) (count : Nat) :
    s.readPart p (.further count) = s.setMport p { s.mport p with
      bus := .reading live (k + count),
      sent := (s.mport p).sent ++
        (s.mport p).readBytes live ((k + 7) / 8) ((k + count + 7) / 8 - (k + 7) / 8) } := by
  change s.setMport p ((s.mport p).readMore count) = _
  unfold MPort.readMore
  rw [h]
  rfl

theorem readPart_past (h : ∀ live k, (s.mport p).bus ≠ .reading live k) (count : Nat) :
    s.readPart p (.further count) = s := by
  have hstands : (s.mport p).readMore count = s.mport p := by
    unfold MPort.readMore
    split
    case h_1 live k hbus => exact absurd hbus (h live k)
    all_goals rfl
  change s.setMport p ((s.mport p).readMore count) = s
  rw [hstands, setMport_self]

theorem statusPart_busy (h : s.busFree p = false) (clears : Bool) (count : Nat) :
    s.statusPart p clears (.begins count) = s :=
  if_neg (by rw [h]; exact Bool.false_ne_true)

theorem statusBits_of {s y : State} (clears : Bool) {had more begun : Nat} (hb : begun = bytesBegun had more)
    (hy : y = s.setMport p { s.mport p with bus := .status (had + more) }) :
    s.statusBits p clears had more = if clears then y.statusRead p begun else y.statusCopies p begun := by
  rw [hb, hy]
  rfl

theorem statusPart_begins {y : State} (h : s.busFree p = true) (clears : Bool) (count : Nat)
    (hy : y = s.setMport p { s.mport p with bus := .status count, sent := [] }) :
    s.statusPart p clears (.begins count) = if clears then y.statusRead p ((count + 7) / 8)
      else y.statusCopies p ((count + 7) / 8) := by
  refine (if_pos h).trans (statusBits_of clears ?_ ?_)
  · rw [bytesBegun_eq]
    omega
  · rw [hy, mport_setMport_same, setMport_setMport, Nat.zero_add]
    rfl

theorem statusPart_further {y : State} {k begun : Nat} (h : (s.mport p).bus = .status k) (clears : Bool)
    {count : Nat} (hb : begun = (k + count + 7) / 8 - (k + 7) / 8)
    (hy : y = s.setMport p { s.mport p with bus := .status (k + count) }) :
    s.statusPart p clears (.further count) = if clears then y.statusRead p begun else y.statusCopies p begun := by
  refine Eq.trans ?_ (statusBits_of clears hb hy)
  unfold State.statusPart
  dsimp only
  rw [h]

theorem statusPart_past (h : ∀ k, (s.mport p).bus ≠ .status k) (clears : Bool) (count : Nat) :
    s.statusPart p clears (.further count) = s := by
  unfold State.statusPart
  dsimp only
  split
  case h_1 k hbus => exact absurd hbus (h k)
  all_goals rfl

end

/-! ### Port S's transactions (R172) -/

theorem exec_i2cRead_begins (s : State) (a : BitVec 7) (count : Nat) : exec (.i2cRead a (.begins count)) s =
    .next (s.addressed a fun u => u.readS (.begins count)) := rfl

theorem exec_lastOperationSet (s : State) (a : BitVec 7) (data : List Byte) :
    exec (.lastOperationSet a data) s = .next (s.addressed a fun u => u.i2cWrite data) := rfl

theorem exec_writeRequest_begins (s : State) (a : BitVec 7) (bits : List Bool) :
    exec (.writeRequest (.i2c a) (.begins bits)) s = .next (s.addressed a fun u => u.writeOn .s bits) := rfl

theorem exec_i2cRead_further (s : State) (a : BitVec 7) (count : Nat) :
    exec (.i2cRead a (.further count)) s = .next (if a = s.address then s.readS (.further count) else s) := rfl

theorem i2cWrite_operation (s : State) {op : Byte} (rest : List Byte) (h : op ≠ 0x01) : s.i2cWrite (op :: rest) =
    { s with
      portS := s.portS.quiet, acks := s.acks + 1 + rest.length,
      lastOp := if op = 0x02 then .readResponse else if op = 0x03 then .readStatus else s.lastOp } :=
  if_neg h

theorem i2cWrite_request (s : State) (rest : List Byte) : s.i2cWrite (0x01 :: rest) = s.writeOn .s (slotsBits rest) :=
  rfl

/-! ### The end of a read (R176) -/

theorem exec_readResponseEnd (s : State) (p : MPortId) :
    exec (.readResponseEnd p) s = .next (s.setMport p (s.mport p).endRead) := rfl

section
variable {x : MPort}

theorem endRead_whole {k : Nat} (h : x.bus = .reading true k) (hk : x.response.length ≤ k / 8) :
    x.endRead = { x with txn := .idle, response := [], bus := .free } := by
  unfold MPort.endRead
  rw [h]
  exact if_pos ⟨rfl, hk⟩

theorem endRead_part {k : Nat} (h : x.bus = .reading true k) (hk : k / 8 < x.response.length) :
    x.endRead = { x with bus := .free } := by
  unfold MPort.endRead
  rw [h]
  exact if_neg fun hw => Nat.not_le_of_lt hk hw.2

theorem endRead_dead {k : Nat} (h : x.bus = .reading false k) : x.endRead = { x with bus := .free } := by
  unfold MPort.endRead
  rw [h]
  exact if_neg fun hw => Bool.false_ne_true hw.1

theorem endRead_status (h : (∃ k, x.bus = .status k) ∨ x.bus = .missed) : x.endRead = { x with bus := .free } := by
  unfold MPort.endRead
  obtain ⟨k, h⟩ | h := h <;> rw [h]

theorem endRead_none (h : x.bus = .free ∨ ∃ b l, x.bus = .writing b l) : x.endRead = x := by
  unfold MPort.endRead
  obtain h | ⟨b, l, h⟩ := h <;> rw [h]

end

/-- Settles O52. -/
theorem readsSendResponseOrStatus : Obligations.ReadsSendResponseOrStatus := by
  refine ⟨fun s p => ?_, fun x live first count => ⟨length_readBytes .., fun k hk => getElem?_readBytes x live first hk,
    read_eq count⟩, fun s p count => ⟨statusCopies_eq s p count, statusRead_eq s p count⟩,
    fun s p clears count => ⟨fun hbusy => ?_, fun y hr hidle hy => ?_, fun live k h => readPart_further h count,
      fun h => readPart_past h count, fun k y begun h hb hy => statusPart_further h clears hb hy,
      fun h => statusPart_past h clears count⟩, fun s part => ⟨rfl, rfl⟩, fun s a count data rest op => ?_,
    fun s p => ?_⟩
  · refine (statusByte_eq s p).trans ?_
    cases (s.mport p).txn <;> rfl
  · have hb : s.busFree p = false := busFree_taken hbusy
    exact ⟨readPart_busy hb count, statusPart_busy hb clears count⟩
  · have hb : s.busFree p = true := busFree_idle hr hidle
    exact ⟨readPart_begins hb count, statusPart_begins hb clears count hy⟩
  · refine ⟨fun hbusy => ?_, fun hr hidle => ⟨fun ha t ht => ?_, fun ha => ?_⟩, fun ha => ?_, fun ha => ?_⟩
    · have hb : s.busFree .s = false := busFree_taken hbusy
      rw [exec_i2cRead_begins, exec_lastOperationSet, addressed_busy hb, addressed_busy hb]
      exact ⟨rfl, rfl⟩
    · have hb : s.busFree .s = true := busFree_idle hr hidle
      rw [exec_i2cRead_begins, exec_lastOperationSet, addressed_other hb ha, addressed_other hb ha, ht]
      exact ⟨rfl, rfl⟩
    · have hb : s.busFree .s = true := busFree_idle hr hidle
      have hown : a = s.address := ha
      subst hown
      rw [exec_i2cRead_begins, exec_lastOperationSet, exec_lastOperationSet, addressed_own hb, addressed_own hb,
        addressed_own hb]
      refine ⟨fun y hy => ?_, rfl, fun hop => ?_, fun hop => ?_⟩
      · rw [hy]
        unfold State.readS
        cases s.lastOp <;> rfl
      · rw [i2cWrite_operation _ rest hop]
        rfl
      · rw [hop, i2cWrite_request]
        exact ((exec_writeRequest_begins s s.address _).trans (congrArg Host.Outcome.next (addressed_own hb))).symm
    · rw [exec_i2cRead_further]
      exact congrArg Host.Outcome.next (if_neg ha)
    · rw [exec_i2cRead_further]
      refine congrArg Host.Outcome.next ((if_pos ha).trans ?_)
      unfold State.readS
      cases s.lastOp <;> rfl
  · refine ⟨_, exec_readResponseEnd s p, setMport_frame s p _, fun o ho => mport_setMport_ne s _ ho, ?_⟩
    rw [mport_setMport_same]
    refine ⟨fun k h => ⟨endRead_whole h, endRead_part h⟩, ?_, fun h => ?_⟩
    · rintro (⟨k, h⟩ | h)
      · exact endRead_dead h
      · exact endRead_status h
    · rw [endRead_none h, setMport_self]

end Sys2Proof.Proofs
end

section
/-! PROOFS. How a request is written, port S addressed, and port M's bits read as a transaction (O51). -/

namespace Sys2Proof.Proofs

open Sys2Proof Sys2Proof.Machine

/-! ### Frames stored -/

theorem storeFrame_short {bytes : List Byte} (h : bytes.length < 3) : storeFrame bytes = bytes := by
  match bytes, h with
  | [], _ | [_], _ | [_, _], _ => rfl

theorem storeFrame_long (code tag len : Byte) (data : List Byte) : storeFrame (code :: tag :: len :: data) =
    code :: tag :: len :: data.take (if len.toNat ≤ 29 then len.toNat else 0) := by
  change (code :: tag :: len :: data).take (if len.toNat ≤ 29 then 3 + len.toNat else 3) = _
  split
  · rw [Nat.add_comm]
    rfl
  · rfl

theorem frameComplete_short {bytes : List Byte} (h : bytes.length < 3) : frameComplete bytes = false := by
  match bytes, h with
  | [], _ | [_], _ | [_, _], _ => rfl

theorem frameComplete_long (code tag len : Byte) (data : List Byte) :
    frameComplete (code :: tag :: len :: data) = true ↔ 29 < len.toNat ∨ len.toNat ≤ data.length := by
  have hsize : frameComplete (code :: tag :: len :: data) =
      decide ((if len.toNat ≤ 29 then 3 + len.toNat else 3) ≤ data.length + 3) := rfl
  rw [hsize, decide_eq_true_iff]
  split <;> omega

/-! ### A port that a write reaches -/

section
variable {x : MPort} {bits rest : List Bool} {bytes : List Byte} (hrest : rest.length < 8)
include hrest

theorem write_taken (h : x.txn = .idle ∨ x.txn = .answered) (hb : bits = slotsBits bytes ++ rest) : x.write bits =
    { x with txn := .loading, request := storeFrame bytes, response := [],
             bus := .writing true rest, sent := [] } := by
  rw [MPort.write, if_pos (takes_iff.mpr h), hb, wholeBytes_slotsBits bytes hrest, unfinishedBits_slotsBits bytes hrest]

theorem write_refused (h : x.txn = .waiting ∨ x.txn = .executing) (hb : bits = slotsBits bytes ++ rest) :
    x.write bits = { x with
      refused := true, bus := .writing false rest, sent := [] } := by
  have hnot : ¬ x.txn.takes = true := by
    rw [Bool.not_eq_true, not_takes]
    exact .inr h
  rw [MPort.write, if_neg hnot, hb, unfinishedBits_slotsBits bytes hrest]

theorem writeMore_eq {taken : Bool} {shift : List Bool} (hbus : x.bus = .writing taken shift)
    (hb : shift ++ bits = slotsBits bytes ++ rest) : x.writeMore bits = { x with
      request := if taken then storeFrame (x.request ++ bytes) else x.request,
      bus := .writing taken rest } := by
  cases taken with
  | true =>
    rw [writeMore_taken hbus, hb, wholeBytes_slotsBits bytes hrest, unfinishedBits_slotsBits bytes hrest]
    rfl
  | false =>
    rw [writeMore_refused hbus, hb, unfinishedBits_slotsBits bytes hrest]
    rfl

end

theorem sent_write (x : MPort) (bits : List Bool) : (x.write bits).sent = [] := by
  unfold MPort.write
  split <;> rfl

/-! ### A write begins -/

section
variable {s : State}

theorem exec_write_busy {via : Via} (hm : via = .spi → s.busFree .m = false)
    (hs : ∀ a, via = .i2c a → s.busFree .s = false) (bits : List Bool) :
    exec (.writeRequest via (.begins bits)) s = .next s := by
  cases via with
  | spi => exact congrArg Host.Outcome.next (if_neg (by rw [hm rfl]; exact Bool.false_ne_true))
  | i2c a =>
    exact (exec_writeRequest_begins s a bits).trans (congrArg Host.Outcome.next (addressed_busy (hs a rfl)))

/-- Port M sends a copy of the status byte with each byte that begins (R171). -/
theorem exec_write_spi (h : s.busFree .m = true) (bits : List Bool) :
    exec (.writeRequest .spi (.begins bits)) s = .next (s.setMport .m { s.portM.write bits with
      sent := List.replicate (bytesBegun 0 bits.length) ((s.setMport .m (s.portM.write bits)).statusByte .m) }) := by
  refine congrArg Host.Outcome.next ((if_pos h).trans ?_)
  have hcopies : s.writeOn .m bits =
      (s.setMport .m (s.portM.write bits)).statusCopies .m (bytesBegun 0 bits.length) := rfl
  rw [hcopies, statusCopies_eq, mport_setMport_same, setMport_setMport, sent_write, List.nil_append]

/-- Port S acknowledges its address, the operation byte and each byte of data (R172). -/
theorem exec_write_i2c (h : s.busFree .s = true) (bits : List Bool) :
    exec (.writeRequest (.i2c s.address) (.begins bits)) s = .next { s.setMport .s (s.portS.write bits) with
      acks := 1 + (0 + bits.length) / 8 + 1, lastOp := .writeRequest } :=
  (exec_writeRequest_begins s s.address bits).trans (congrArg Host.Outcome.next (addressed_own h))

end

/-- The bytes and the byte left unfinished, counted. -/
theorem length_spelled {bits rest : List Bool} {bytes : List Byte} (hrest : rest.length < 8)
    (hb : bits = slotsBits bytes ++ rest) :
    bits.length / 8 = bytes.length ∧ bytesBegun 0 bits.length = bytes.length + if rest = [] then 0 else 1 := by
  rw [hb, List.length_append, length_slotsBits, bytesBegun_eq]
  refine ⟨by omega, ?_⟩
  split
  case isTrue h =>
    rw [h, List.length_nil]
    omega
  case isFalse h =>
    have hpos := List.length_pos_of_ne_nil h
    omega

/-! ### More bits -/

/-- What more bits of a running write leave. -/
theorem writeOnMore_spi {s : State} {taken : Bool} {shift : List Bool} (h : s.portM.bus = .writing taken shift)
    (bits : List Bool) : s.writeOnMore .m bits = s.setMport .m { s.portM.writeMore bits with
      sent := (s.portM.writeMore bits).sent ++ List.replicate (bytesBegun shift.length bits.length)
        ((s.setMport .m (s.portM.writeMore bits)).statusByte .m) } := by
  have hmport : (s.mport .m).bus = .writing taken shift := h
  unfold State.writeOnMore
  rw [hmport]
  rfl

theorem writeOnMore_i2c {s : State} {taken : Bool} {shift : List Bool} (h : s.portS.bus = .writing taken shift)
    (bits : List Bool) : s.writeOnMore .s bits = { s.setMport .s (s.portS.writeMore bits) with
      acks := s.acks + (shift.length + bits.length) / 8 } := by
  have hmport : (s.mport .s).bus = .writing taken shift := h
  unfold State.writeOnMore
  rw [hmport]
  rfl

theorem writeOnMore_past {s : State} {p : MPortId} (h : ∀ b l, (s.mport p).bus ≠ .writing b l) (bits : List Bool) :
    s.writeOnMore p bits = s := by
  unfold State.writeOnMore
  split
  case h_1 taken shift hbus => exact absurd hbus (h taken shift)
  all_goals rfl

/-- The port that a bus reaches: port M by SPI, port S by its own address. -/
def Reaches (s : State) (via : Via) (p : MPortId) : Prop :=
  (via = .spi ∧ p = .m) ∨ (via = .i2c s.address ∧ p = .s)

theorem exec_writeRequest_further {s : State} {via : Via} {p : MPortId} (h : Reaches s via p) (bits : List Bool) :
    exec (.writeRequest via (.further bits)) s = .next (s.writeOnMore p bits) := by
  obtain ⟨rfl, rfl⟩ | ⟨rfl, rfl⟩ := h
  · rfl
  · exact congrArg Host.Outcome.next (if_pos rfl)

/-! ### The end of a write (R174, R175) -/

theorem exec_writeTransactionEnd (s : State) (p : MPortId) :
    exec (.writeTransactionEnd p) s = .next (s.setMport p (s.mport p).endWrite) := rfl

section
variable {x : MPort}

theorem endWrite_taken {shift : List Bool} (h : x.bus = .writing true shift) : x.endWrite =
    if frameComplete x.request then { x with txn := .waiting, bus := .free }
    else { x with txn := .idle, request := [], bus := .free } := by
  unfold MPort.endWrite
  rw [h]

theorem endWrite_refused (h : (∃ shift, x.bus = .writing false shift) ∨ x.bus = .missed) :
    x.endWrite = { x with bus := .free } := by
  unfold MPort.endWrite
  obtain ⟨shift, h⟩ | h := h <;> rw [h]

theorem endWrite_none (h : x.bus = .free ∨ (∃ k, x.bus = .status k) ∨ ∃ live k, x.bus = .reading live k) :
    x.endWrite = x := by
  unfold MPort.endWrite
  obtain h | ⟨k, h⟩ | ⟨live, k, h⟩ := h <;> rw [h]

end

/-! ### Transactions by their bits (R171) -/

theorem spiOperation_short {bits : List Bool} (h : bits.length < 8) : spiOperation bits = none := by
  rw [spiOperation, wholeBytes_short h]
  rfl

theorem spiOperation_whole (op : Byte) (after : List Bool) : spiOperation (byteBits op ++ after) = some op := by
  rw [spiOperation, wholeBytes_byteBits]
  rfl

theorem spiTransaction_whole (op : Byte) (after : List Bool) : spiTransaction (byteBits op ++ after) =
    if op = 0x01 then [.writeRequest .spi (.begins after), .writeTransactionEnd .m]
    else if op = 0x02 then [.readResponse (.begins after.length), .readResponseEnd .m]
    else if op = 0x03 then [.readStatus (.begins after.length), .readResponseEnd .m] else [] := by
  have hdrop : (byteBits op ++ after).drop 8 = after := List.drop_left' (length_byteBits op)
  have hlength : (byteBits op ++ after).length - 8 = after.length := by
    rw [List.length_append, length_byteBits]
    omega
  unfold spiTransaction
  rw [spiOperation_whole]
  dsimp only
  rw [hdrop, hlength]

theorem spiSelects_whole (op : Byte) (after : List Bool) :
    spiSelects (byteBits op ++ after) = decide (op = 0x01 ∨ op = 0x02 ∨ op = 0x03) := by
  unfold spiSelects
  rw [spiOperation_whole]
  simp [Bool.or_assoc, beq_eq_decide]

theorem spiSelects_short {bits : List Bool} (h : bits.length < 8) : spiSelects bits = false := by
  unfold spiSelects
  rw [spiOperation_short h]

theorem spiDataOut_driven {s : State} (hr : s.rst = false) (hbus : s.portM.bus ≠ .missed) (bits : List Bool) :
    s.spiDataOut (some bits) = some (if spiSelects bits then (slotsBits (0 :: s.portM.sent)).take bits.length
      else List.replicate bits.length false) := by
  refine if_neg ?_
  rw [hr]
  rintro (h | h)
  · cases h
  · exact hbus h

theorem take_sent (op : Byte) (after : List Bool) (sent : List Byte) :
    (slotsBits (0 :: sent)).take (byteBits op ++ after).length =
      List.replicate 8 false ++ (slotsBits sent).take after.length := by
  have hzero : byteBits 0 = List.replicate 8 false := by decide
  rw [slotsBits_cons, List.length_append, length_byteBits, List.take_append, length_byteBits, hzero,
    Nat.add_sub_cancel_left, List.take_of_length_le (by simp)]

/-! ### What a write leaves of its port -/

/-- The port a write begins on. -/
theorem begun_port {x y : MPort} {bits rest : List Bool} {bytes : List Byte} (hrest : rest.length < 8)
    (hb : bits = slotsBits bytes ++ rest) {sent : List Byte} (hy : y = { x.write bits with sent := sent }) :
    (x.txn = .idle ∨ x.txn = .answered →
      y.txn = .loading ∧ y.response = [] ∧ y.refused = x.refused ∧ y.bus = .writing true rest ∧
      (bytes.length < 3 → y.request = bytes) ∧
      ∀ code tag len data, bytes = code :: tag :: len :: data →
        y.request = code :: tag :: len :: data.take (if len.toNat ≤ 29 then len.toNat else 0)) ∧
    (x.txn = .waiting ∨ x.txn = .executing →
      y.txn = x.txn ∧ y.request = x.request ∧ y.response = x.response ∧ y.refused = true ∧
      y.bus = .writing false rest) := by
  constructor
  · intro h
    rw [hy, write_taken hrest h hb]
    refine ⟨rfl, rfl, rfl, rfl, storeFrame_short, ?_⟩
    rintro code tag len data rfl
    exact storeFrame_long ..
  · intro h
    rw [hy, write_refused hrest h hb]
    exact ⟨rfl, rfl, rfl, rfl, rfl⟩

/-- The port of a write that goes on. -/
theorem continued_port {x y : MPort} {bits shift rest : List Bool} {bytes : List Byte} {taken : Bool}
    (hrest : rest.length < 8) (hbus : x.bus = .writing taken shift) (hb : shift ++ bits = slotsBits bytes ++ rest)
    {sent : List Byte} (hy : y = { x.writeMore bits with sent := sent }) :
    y = { x with request := y.request, sent := y.sent, bus := .writing taken rest } ∧
    (taken = false → y.request = x.request) ∧
    (taken = true → (x.request ++ bytes).length < 3 → y.request = x.request ++ bytes) ∧
    (taken = true → ∀ code tag len data, x.request ++ bytes = code :: tag :: len :: data →
      y.request = code :: tag :: len :: data.take (if len.toNat ≤ 29 then len.toNat else 0)) := by
  rw [writeMore_eq hrest hbus hb] at hy
  subst hy
  refine ⟨rfl, ?_, ?_, ?_⟩
  · rintro rfl
    rfl
  · rintro rfl
    exact storeFrame_short
  · rintro rfl code tag len data h
    exact (congrArg storeFrame h).trans (storeFrame_long ..)

/-- Settles O51. -/
theorem requestIsWrittenAndWaits : Obligations.RequestIsWrittenAndWaits := by
  refine ⟨fun s via p bits rest bytes hreach hrest => ⟨fun hb => ⟨fun hbusy => ?_, fun hr hidle => ?_⟩,
      fun hnone => ?_, fun taken shift hbus hb => ?_⟩,
    fun s a bits => ⟨?_, fun ha => ⟨?_, fun hbusy => ?_, fun hr hidle => ?_⟩⟩,
    fun s p => ?_, fun bits hshort => ?_, fun op rest unfinished after _ hafter => ?_,
    fun s bits => ⟨?_, fun h => if_pos h, fun hr hbus => ⟨fun hshort => ?_, fun op after hbits => ?_⟩⟩,
    fun a op rest => ⟨rfl, rfl⟩⟩
  · have hfree : s.busFree p = false := busFree_taken hbusy
    obtain ⟨rfl, rfl⟩ | ⟨rfl, rfl⟩ := hreach
    · exact exec_write_busy (fun _ => hfree) (fun a h => Via.noConfusion h) bits
    · exact exec_write_busy Via.noConfusion (fun _ _ => hfree) bits
  · have hfree : s.busFree p = true := busFree_idle hr hidle
    obtain ⟨hwhole, hbegun⟩ := length_spelled hrest hb
    obtain ⟨rfl, rfl⟩ | ⟨rfl, rfl⟩ := hreach
    · refine ⟨_, exec_write_spi hfree bits, rfl, fun _ => ⟨rfl, rfl, rfl, ?_⟩, MPortId.noConfusion, ?_⟩
      · rw [hbegun, statusByte_setMport, statusByte_setMport]
        rfl
      · exact begun_port hrest hb rfl
    · refine ⟨_, exec_write_i2c hfree bits, rfl, MPortId.noConfusion, fun _ => ⟨rfl, rfl, sent_write .., ?_⟩, ?_⟩
      · change 1 + (0 + bits.length) / 8 + 1 = _
        rw [Nat.zero_add, hwhole]
        omega
      · exact begun_port hrest hb (sent := []) (by rw [← sent_write s.portS bits]; rfl)
  · rw [exec_writeRequest_further hreach, writeOnMore_past hnone]
  · rw [exec_writeRequest_further hreach]
    obtain ⟨rfl, rfl⟩ | ⟨rfl, rfl⟩ := hreach
    · have hother : ∀ o, o ≠ MPortId.m → (s.writeOnMore .m bits).mport o = s.mport o := fun o ho => by
        rw [writeOnMore_spi hbus]
        exact mport_setMport_ne s _ ho
      obtain ⟨hport, hrefused, hshort, hlong⟩ := continued_port hrest hbus hb
        (y := (s.writeOnMore .m bits).mport .m) (by rw [writeOnMore_spi hbus]; rfl)
      refine ⟨_, rfl, ?_, hother, hport, fun _ => ⟨?_, ?_⟩, MPortId.noConfusion, hrefused, hshort, hlong⟩
      · rw [writeOnMore_spi hbus]
        rfl
      · rw [writeOnMore_spi hbus]
        rfl
      · rw [writeOnMore_spi hbus, writeMore_eq (x := s.portM) hrest hbus hb, statusByte_setMport, statusByte_eq]
        rfl
    · have hother : ∀ o, o ≠ MPortId.s → (s.writeOnMore .s bits).mport o = s.mport o := fun o ho => by
        rw [writeOnMore_i2c hbus]
        exact mport_setMport_ne s _ ho
      obtain ⟨hport, hrefused, hshort, hlong⟩ := continued_port hrest hbus hb
        (y := (s.writeOnMore .s bits).mport .s) (by rw [writeOnMore_i2c hbus]; rfl)
      refine ⟨_, rfl, ?_, hother, hport, MPortId.noConfusion, fun _ => ⟨?_, ?_⟩, hrefused, hshort, hlong⟩
      · rw [writeOnMore_i2c hbus]
        rfl
      · rw [writeOnMore_i2c hbus, writeMore_eq (x := s.portS) hrest hbus hb]
        rfl
      · have hwhole := (length_spelled hrest hb).1
        rw [List.length_append] at hwhole
        rw [writeOnMore_i2c hbus]
        exact congrArg (s.acks + ·) hwhole
  · rw [State.acknowledges, Bool.and_eq_true, busFree_iff, isFree_iff, beq_iff_eq, and_assoc]
    rfl
  · exact congrArg Host.Outcome.next (if_neg ha)
  · have hfree : s.busFree .s = false := busFree_taken hbusy
    exact exec_write_busy Via.noConfusion (fun _ _ => hfree) bits
  · have hfree : s.busFree .s = true := busFree_idle hr hidle
    exact (exec_writeRequest_begins s a bits).trans (congrArg Host.Outcome.next (addressed_other hfree ha))
  · refine ⟨_, exec_writeTransactionEnd s p, setMport_frame s p _, fun o ho => mport_setMport_ne s _ ho, ?_⟩
    rw [mport_setMport_same]
    refine ⟨?_, endWrite_refused, fun h => ?_⟩
    · rintro ⟨shift, hbus⟩
      refine ⟨fun code tag len rest hreq => ⟨fun hwhole => ?_, fun hlen hpart => ?_⟩, fun hshort => ?_⟩
      · rw [endWrite_taken hbus, if_pos]
        rw [hreq]
        exact (frameComplete_long ..).mpr hwhole
      · rw [endWrite_taken hbus, if_neg]
        rw [hreq, frameComplete_long]
        omega
      · rw [endWrite_taken hbus, if_neg]
        rw [frameComplete_short hshort]
        exact Bool.false_ne_true
    · rw [endWrite_none h, setMport_self]
  · unfold spiTransaction
    rw [spiOperation_short hshort]
  · exact spiTransaction_whole op after
  · unfold State.spiDataOut
    split <;> rfl
  · rw [spiDataOut_driven hr hbus, spiSelects_short hshort]
    rfl
  · have hspelled : bits = byteBits op ++ after := hbits
    rw [spiDataOut_driven hr hbus, hspelled, spiSelects_whole, take_sent]
    simp only [decide_eq_true_eq]
    rfl

end Sys2Proof.Proofs
end

section
/-! PROOFS. The layouts of the request frames: the fields read and written, and each request's parameters
spelled out (R188, R189). -/

namespace Sys2Proof.Proofs

open Sys2Proof Sys2Proof.Machine

/-! ### Fields of several bytes -/

theorem halfBytes_half (hi lo : Byte) : halfBytes (half hi lo) = [hi, lo] := by
  have hhi : (half hi lo).extractLsb' 8 8 = hi := BitVec.extractLsb'_append_eq_left
  have hlo : (half hi lo).extractLsb' 0 8 = lo := BitVec.extractLsb'_append_eq_right
  rw [halfBytes, hhi, hlo]

theorem half_halfBytes (x : Half) : half (x.extractLsb' 8 8) (x.extractLsb' 0 8) = x :=
  BitVec.extractLsb'_append_extractLsb'_eq_extractLsb' (start₂ := 8) (start₁ := 0) rfl |>.trans
    BitVec.extractLsb'_eq_self

theorem wordBytes_wordOf (a b c d : Byte) : wordBytes (wordOf a b c d) = [a, b, c, d] := by
  have ha : (wordOf a b c d).extractLsb' 24 8 = a := by
    unfold wordOf
    rw [BitVec.extractLsb'_append_eq_of_le (by decide), BitVec.extractLsb'_append_eq_of_le (by decide)]
    exact BitVec.extractLsb'_append_eq_left
  have hb : (wordOf a b c d).extractLsb' 16 8 = b := by
    unfold wordOf
    rw [BitVec.extractLsb'_append_eq_of_le (by decide), BitVec.extractLsb'_append_eq_of_le (by decide)]
    exact BitVec.extractLsb'_append_eq_right
  have hc : (wordOf a b c d).extractLsb' 8 8 = c := by
    unfold wordOf
    rw [BitVec.extractLsb'_append_eq_of_le (by decide)]
    exact BitVec.extractLsb'_append_eq_right
  have hd : (wordOf a b c d).extractLsb' 0 8 = d := BitVec.extractLsb'_append_eq_right
  rw [wordBytes, ha, hb, hc, hd]

theorem wordOf_wordBytes (x : BitVec 32) :
    wordOf (x.extractLsb' 24 8) (x.extractLsb' 16 8) (x.extractLsb' 8 8) (x.extractLsb' 0 8) = x := by
  unfold wordOf
  rw [BitVec.extractLsb'_append_extractLsb'_eq_extractLsb' (by rfl),
    BitVec.extractLsb'_append_extractLsb'_eq_extractLsb' (by rfl),
    BitVec.extractLsb'_append_extractLsb'_eq_extractLsb' (by rfl)]
  exact BitVec.extractLsb'_eq_self

/-! ### Fields taken from the front -/

theorem takeByte_eq_some {present : Bool} {r t : List Byte} {o : Option Byte} :
    takeByte present r = some (o, t) ↔ o.isSome = present ∧ r = optBytes o ++ t := by
  unfold takeByte
  split
  · cases o <;> simp [optBytes, eq_comm]
  · cases o <;> simp [optBytes, eq_comm]
  · cases o <;> simp [optBytes]

theorem takeEnd_eq_some {present : Bool} {r t : List Byte} {o : Option RawEnd} :
    takeEnd present r = some (o, t) ↔ o.isSome = present ∧ r = o.elim [] endBytes ++ t := by
  unfold takeEnd
  split
  · cases o <;> simp [eq_comm]
  case h_2 p f t' =>
    cases o with
    | none => simp
    | some e =>
      obtain ⟨port, first⟩ := e
      simp [endBytes, eq_comm, and_assoc]
  case h_3 hshort =>
    cases o with
    | none => simp
    | some e => simpa [endBytes] using fun h => hshort _ _ _ h

theorem takeLabel_eq_some {present : Bool} {r t : List Byte} {o : Option Label} :
    takeLabel present r = some (o, t) ↔ o.isSome = present ∧ r = o.elim [] wordBytes ++ t := by
  unfold takeLabel
  split
  · cases o <;> simp [eq_comm]
  case h_2 a b c d t' =>
    cases o with
    | none => simp
    | some l =>
      constructor
      · intro h
        injection h with h
        injection h with hl ht
        injection hl with hl
        rw [← hl, ← ht, Option.elim_some, wordBytes_wordOf]
        exact ⟨rfl, rfl⟩
      · rintro ⟨-, h⟩
        injection h with ha h
        injection h with hb h
        injection h with hc h
        injection h with hd h
        rw [ha, hb, hc, hd, wordOf_wordBytes, h]
        rfl
  case h_3 hshort =>
    cases o with
    | none => simp
    | some e => simpa [wordBytes] using fun h => hshort _ _ _ _ _ h

/-- The bytes of a profile. -/
def pairBytes (o : Option (Byte × Byte)) : List Byte := o.elim [] fun p => [p.1, p.2]

theorem takePair_eq_some {present : Bool} {r t : List Byte} {o : Option (Byte × Byte)} :
    takePair present r = some (o, t) ↔ o.isSome = present ∧ r = pairBytes o ++ t := by
  unfold takePair
  split
  · cases o <;> simp [pairBytes, eq_comm]
  case h_2 a b t' =>
    cases o with
    | none => simp
    | some p =>
      obtain ⟨x, y⟩ := p
      simp [pairBytes, eq_comm, and_assoc]
  case h_3 hshort =>
    cases o with
    | none => simp
    | some p => simpa [pairBytes] using fun h => hshort _ _ _ h

theorem takeEnds_eq_some {n : Nat} {r t : List Byte} {l : List RawEnd} :
    takeEnds n r = some (l, t) ↔ l.length = n ∧ r = l.flatMap endBytes ++ t := by
  induction n generalizing r l with
  | zero => cases l <;> simp [takeEnds, eq_comm]
  | succ n ih =>
    cases l with
    | nil =>
      match r with
      | [] | [_] => simp [takeEnds]
      | _ :: _ :: _ => simp [takeEnds]
    | cons e l =>
      obtain ⟨port, first⟩ := e
      match r with
      | [] | [_] => simp [takeEnds, endBytes]
      | p :: f :: r =>
        have hmap : takeEnds (n + 1) (p :: f :: r) = some (⟨port, first⟩ :: l, t) ↔
            takeEnds n r = some (l, t) ∧ p = port ∧ f = first := by
          rw [takeEnds, Option.map_eq_some_iff]
          constructor
          · rintro ⟨⟨l', t'⟩, h, heq⟩
            simp_all
          · rintro ⟨h, rfl, rfl⟩
            exact ⟨(l, t), h, rfl⟩
        rw [hmap, ih]
        simp [endBytes]
        tauto

/-! ### How many bytes a layout takes -/

/-- A field that takes a given number of bytes, where so many are there. -/
def Consumes {α : Type} (f : List Byte → Option (α × List Byte)) (n : Nat) : Prop :=
  ∀ r, (f r = none ∧ r.length < n) ∨ ∃ x, f r = some x ∧ r.length = n + x.2.length

theorem consumes_takeByte (present : Bool) : Consumes (takeByte present) present.toNat := by
  intro r
  unfold takeByte
  split
  · exact .inr ⟨_, rfl, (Nat.zero_add _).symm⟩
  · exact .inr ⟨_, rfl, Nat.add_comm ..⟩
  · exact .inl ⟨rfl, by decide⟩

theorem consumes_takeEnd (present : Bool) : Consumes (takeEnd present) (2 * present.toNat) := by
  intro r
  cases present with
  | false => exact .inr ⟨_, rfl, (Nat.zero_add _).symm⟩
  | true =>
    match r with
    | [] | [_] => exact .inl ⟨rfl, by simp⟩
    | _ :: _ :: t => exact .inr ⟨_, rfl, by dsimp; omega⟩

theorem consumes_takePair (present : Bool) : Consumes (takePair present) (2 * present.toNat) := by
  intro r
  cases present with
  | false => exact .inr ⟨_, rfl, (Nat.zero_add _).symm⟩
  | true =>
    match r with
    | [] | [_] => exact .inl ⟨rfl, by simp⟩
    | _ :: _ :: t => exact .inr ⟨_, rfl, by dsimp; omega⟩

theorem consumes_takeLabel (present : Bool) : Consumes (takeLabel present) (4 * present.toNat) := by
  intro r
  cases present with
  | false => exact .inr ⟨_, rfl, (Nat.zero_add _).symm⟩
  | true =>
    match r with
    | [] | [_] | [_, _] | [_, _, _] => exact .inl ⟨rfl, by simp⟩
    | _ :: _ :: _ :: _ :: t => exact .inr ⟨_, rfl, by dsimp; omega⟩

theorem consumes_takeEnds (n : Nat) : Consumes (takeEnds n) (2 * n) := by
  intro r
  induction n generalizing r with
  | zero => exact .inr ⟨_, rfl, by simp⟩
  | succ n ih =>
    match r with
    | [] | [_] => exact .inl ⟨rfl, by dsimp; omega⟩
    | p :: f :: r =>
      obtain ⟨h, hlength⟩ | ⟨x, h, hlength⟩ := ih r
      · refine .inl ⟨by rw [takeEnds, h]; rfl, ?_⟩
        simp only [List.length_cons]
        omega
      · refine .inr ⟨_, by rw [takeEnds, h]; rfl, ?_⟩
        simp only [List.length_cons]
        omega

section
variable {α β : Type} {f : List Byte → Option (α × List Byte)} {n m : Nat} {g : α × List Byte → Option β}
  (hf : Consumes f n)
include hf

/-- A layout is met where its first field and then the rest take all bytes. -/
theorem isSome_bind_of {r : List Byte} (hg : ∀ x, f r = some x → ((g x).isSome = true ↔ x.2.length = m)) :
    ((f r).bind g).isSome = true ↔ r.length = n + m := by
  obtain ⟨h, hlength⟩ | ⟨x, h, hlength⟩ := hf r
  · rw [h]
    simp only [Option.bind_none, Option.isSome_none, Bool.false_eq_true, false_iff]
    omega
  · rw [h, Option.bind_some, hg x h, hlength]
    omega

theorem isSome_bind (hg : ∀ x, (g x).isSome = true ↔ x.2.length = m) (r : List Byte) :
    ((f r).bind g).isSome = true ↔ r.length = n + m :=
  isSome_bind_of hf fun x _ => hg x

end

end Sys2Proof.Proofs
end

section
/-! PROOFS. The requests' layouts, each read and written, and the round trip of request frames (O54). -/

namespace Sys2Proof.Proofs

open Sys2Proof Sys2Proof.Machine

/-! ### The layouts of R189, read -/

section
variable {params : List Byte} {i : Instr}

theorem parseIdRevision_eq_some {make : Half → Byte → Instr} : parseIdRevision make params = some i ↔
    ∃ id e, i = make id e ∧ params = halfBytes id ++ [e] := by
  constructor
  · intro h
    unfold parseIdRevision at h
    split at h
    case h_1 hi lo e =>
      exact ⟨half hi lo, e, (Option.some.inj h).symm, by rw [halfBytes_half]; rfl⟩
    case h_2 => cases h
  · rintro ⟨id, e, rfl, rfl⟩
    exact congrArg (fun x => some (make x e)) (half_halfBytes id)

theorem parseId_eq_some {make : Half → Instr} : parseId make params = some i ↔
    ∃ id, i = make id ∧ params = halfBytes id := by
  constructor
  · intro h
    unfold parseId at h
    split at h
    case h_1 hi lo =>
      exact ⟨half hi lo, (Option.some.inj h).symm, (halfBytes_half hi lo).symm⟩
    case h_2 => cases h
  · rintro ⟨id, rfl, rfl⟩
    exact congrArg (fun x => some (make x)) (half_halfBytes id)

theorem parseSwitch_eq_some : parseSwitch params = some i ↔
    ∃ id e c, i = .switch id e c ∧ params = halfBytes id ++ [e, c] := by
  constructor
  · intro h
    unfold parseSwitch at h
    split at h
    case h_1 hi lo e c =>
      exact ⟨half hi lo, e, c, (Option.some.inj h).symm, by rw [halfBytes_half]; rfl⟩
    case h_2 => cases h
  · rintro ⟨id, e, c, rfl, rfl⟩
    exact congrArg (fun x => some (Instr.switch x e c)) (half_halfBytes id)

theorem parsePortSendCode_eq_some : parsePortSendCode params = some i ↔
    ∃ p c k, i = .portSendCode p c k ∧ params = [p, c] ++ halfBytes k := by
  constructor
  · intro h
    unfold parsePortSendCode at h
    split at h
    case h_1 p c hi lo =>
      exact ⟨p, c, half hi lo, (Option.some.inj h).symm, by rw [halfBytes_half]; rfl⟩
    case h_2 => cases h
  · rintro ⟨p, c, k, rfl, rfl⟩
    exact congrArg (fun x => some (Instr.portSendCode p c x)) (half_halfBytes k)

theorem parseFind_eq_some : parseFind params = some i ↔
    ∃ p sl d, i = .find p sl d ∧ params = [p, sl, d] := by
  unfold parseFind
  split
  · simp [eq_comm]
  case h_2 hno => simpa using fun p sl d _ => hno p sl d

theorem parsePort_eq_some {make : Byte → Instr} : parsePort make params = some i ↔
    ∃ p, i = make p ∧ params = [p] := by
  unfold parsePort
  split
  · simp [eq_comm]
  case h_2 hno => simpa using fun p _ => hno p

theorem parsePortLoop_eq_some : parsePortLoop params = some i ↔
    ∃ p c, i = .portLoop p c ∧ params = [p, c] := by
  unfold parsePortLoop
  split
  · simp [eq_comm]
  case h_2 hno => simpa using fun p c _ => hno p c

theorem parseRefSelect_eq_some : parseRefSelect params = some i ↔
    ∃ x p, i = .refSelect x p ∧ params = [x, p] := by
  unfold parseRefSelect
  split
  · simp [eq_comm]
  case h_2 hno => simpa using fun x p _ => hno x p

theorem parseNone_eq_some {j : Instr} : parseNone j params = some i ↔ i = j ∧ params = [] := by
  unfold parseNone
  split
  · simp [eq_comm]
  case h_2 hno => simpa using fun _ => hno

theorem parseProtect_eq_some : parseProtect params = some i ↔ ∃ q, i = .protect q ∧
    params = halfBytes q.id ++ [q.expected, q.standby.port, q.standby.first, q.mode] ++ optBytes q.wtr := by
  constructor
  · intro h
    unfold parseProtect at h
    split at h
    case h_1 hi lo e sp sf m =>
      exact ⟨_, (Option.some.inj h).symm, by rw [halfBytes_half]; rfl⟩
    case h_2 hi lo e sp sf m w =>
      exact ⟨_, (Option.some.inj h).symm, by rw [halfBytes_half]; rfl⟩
    case h_3 => cases h
  · rintro ⟨⟨id, e, ⟨sp, sf⟩, m, wtr⟩, rfl, rfl⟩
    cases wtr with
    | none => exact congrArg (fun x => some (Instr.protect ⟨x, e, ⟨sp, sf⟩, m, none⟩)) (half_halfBytes id)
    | some w => exact congrArg (fun x => some (Instr.protect ⟨x, e, ⟨sp, sf⟩, m, some w⟩)) (half_halfBytes id)

theorem parseAttnEnable_eq_some : parseAttnEnable params = some i ↔ ∃ mask m s, i = .attnEnable m s ∧
    params = mask :: (optBytes m ++ optBytes s) ∧ m.isSome = mask[0] ∧ s.isSome = mask[1] := by
  constructor
  · intro h
    unfold parseAttnEnable at h
    split at h
    case h_1 mask r =>
      simp only [Option.bind_eq_some_iff, Prod.exists, takeByte_eq_some] at h
      obtain ⟨m, r1, ⟨hmask0, rfl⟩, s, r2, ⟨hmask1, rfl⟩, h⟩ := h
      cases r2 with
      | nil => exact ⟨mask, m, s, (Option.some.inj h).symm, by rw [List.append_nil], hmask0, hmask1⟩
      | cons b t => cases h
    case h_2 => cases h
  · rintro ⟨mask, m, s, rfl, rfl, h0, h1⟩
    have hs : takeByte mask[1] (optBytes s) = some (s, []) :=
      takeByte_eq_some.mpr ⟨h1, (List.append_nil _).symm⟩
    unfold parseAttnEnable
    dsimp only
    rw [takeByte_eq_some.mpr ⟨h0, rfl⟩, Option.bind_some, hs]
    rfl

theorem parsePortSet_eq_some : parsePortSet params = some i ↔ ∃ mask q, i = .portSet q ∧
    params = q.port :: mask :: (optBytes q.enable ++ (optBytes q.idleCode ++ (optBytes q.codeResponse ++
      (optBytes q.farSend ++ (optBytes q.threshold ++ optBytes q.loopTimeout))))) ∧
    q.enable.isSome = mask[0] ∧ q.idleCode.isSome = mask[1] ∧ q.codeResponse.isSome = mask[2] ∧
    q.farSend.isSome = mask[3] ∧ q.threshold.isSome = mask[4] ∧ q.loopTimeout.isSome = mask[5] := by
  constructor
  · intro h
    unfold parsePortSet at h
    split at h
    case h_1 port mask r =>
      simp only [Option.bind_eq_some_iff, Prod.exists, takeByte_eq_some] at h
      obtain ⟨o0, r0, ⟨h0, rfl⟩, o1, r1, ⟨h1, rfl⟩, o2, r2, ⟨h2, rfl⟩, o3, r3, ⟨h3, rfl⟩,
        o4, r4, ⟨h4, rfl⟩, o5, r5, ⟨h5, rfl⟩, h⟩ := h
      cases r5 with
      | nil =>
        exact ⟨mask, ⟨port, o0, o1, o2, o3, o4, o5⟩, (Option.some.inj h).symm, by rw [List.append_nil],
          h0, h1, h2, h3, h4, h5⟩
      | cons b t => cases h
    case h_2 => cases h
  · rintro ⟨mask, ⟨port, o0, o1, o2, o3, o4, o5⟩, rfl, rfl, h0, h1, h2, h3, h4, h5⟩
    have hlast : takeByte mask[5] (optBytes o5) = some (o5, []) :=
      takeByte_eq_some.mpr ⟨h5, (List.append_nil _).symm⟩
    unfold parsePortSet
    dsimp only
    rw [takeByte_eq_some.mpr ⟨h0, rfl⟩, Option.bind_some, takeByte_eq_some.mpr ⟨h1, rfl⟩, Option.bind_some,
      takeByte_eq_some.mpr ⟨h2, rfl⟩, Option.bind_some, takeByte_eq_some.mpr ⟨h3, rfl⟩, Option.bind_some,
      takeByte_eq_some.mpr ⟨h4, rfl⟩, Option.bind_some, hlast]
    rfl

theorem parseModify_eq_some : parseModify params = some i ↔ ∃ mask q, i = .modify q ∧
    params = halfBytes q.id ++ (q.expected :: mask :: (q.label.elim [] wordBytes ++ (optBytes q.code ++
      (optBytes q.holdOff ++ (optBytes q.clearTime ++ (q.add.elim [] endBytes ++ optBytes q.remove)))))) ∧
    q.label.isSome = mask[0] ∧ q.code.isSome = mask[1] ∧ q.holdOff.isSome = mask[2] ∧
    q.clearTime.isSome = mask[3] ∧ q.add.isSome = mask[4] ∧ q.remove.isSome = mask[5] := by
  constructor
  · intro h
    unfold parseModify at h
    split at h
    case h_1 hi lo expected mask r =>
      simp only [Option.bind_eq_some_iff, Prod.exists, takeLabel_eq_some, takeByte_eq_some, takeEnd_eq_some] at h
      obtain ⟨o0, r0, ⟨h0, rfl⟩, o1, r1, ⟨h1, rfl⟩, o2, r2, ⟨h2, rfl⟩, o3, r3, ⟨h3, rfl⟩,
        o4, r4, ⟨h4, rfl⟩, o5, r5, ⟨h5, rfl⟩, h⟩ := h
      cases r5 with
      | nil =>
        exact ⟨mask, ⟨half hi lo, expected, o0, o1, o2, o3, o4, o5⟩, (Option.some.inj h).symm,
          by rw [List.append_nil, halfBytes_half]; rfl, h0, h1, h2, h3, h4, h5⟩
      | cons b t => cases h
    case h_2 => cases h
  · rintro ⟨mask, ⟨id, expected, o0, o1, o2, o3, o4, o5⟩, rfl, rfl, h0, h1, h2, h3, h4, h5⟩
    have hlast : takeByte mask[5] (optBytes o5) = some (o5, []) :=
      takeByte_eq_some.mpr ⟨h5, (List.append_nil _).symm⟩
    change Option.bind (takeLabel mask[0] _) _ = _
    dsimp only
    rw [takeLabel_eq_some.mpr ⟨h0, rfl⟩, Option.bind_some, takeByte_eq_some.mpr ⟨h1, rfl⟩, Option.bind_some,
      takeByte_eq_some.mpr ⟨h2, rfl⟩, Option.bind_some, takeByte_eq_some.mpr ⟨h3, rfl⟩, Option.bind_some,
      takeEnd_eq_some.mpr ⟨h4, rfl⟩, Option.bind_some, hlast]
    exact congrArg (fun x => some (Instr.modify ⟨x, expected, o0, o1, o2, o3, o4, o5⟩)) (half_halfBytes id)

theorem parseConnect_eq_some : parseConnect params = some i ↔ ∃ flags count q, i = .connect q ∧
    params = q.kind :: q.width :: flags :: q.source.port :: q.source.first :: count ::
      (q.dests.flatMap endBytes ++ (wordBytes q.label ++ (optBytes q.code ++ pairBytes q.profile))) ∧
    q.dests.length = count.toNat ∧ q.code.isSome = flags[0] ∧ q.profile.isSome = flags[1] := by
  constructor
  · intro h
    unfold parseConnect at h
    split at h
    case h_1 kind width flags sp sf count r =>
      simp only [Option.bind_eq_some_iff, Prod.exists, takeEnds_eq_some, takeLabel_eq_some,
        takeByte_eq_some, takePair_eq_some] at h
      obtain ⟨l, r0, ⟨h0, rfl⟩, label, r1, ⟨h1, rfl⟩, o2, r2, ⟨h2, rfl⟩, o3, r3, ⟨h3, rfl⟩, h⟩ := h
      obtain ⟨word, rfl⟩ := Option.isSome_iff_exists.mp h1
      cases r3 with
      | nil =>
        exact ⟨flags, count, ⟨kind, width, ⟨sp, sf⟩, l, word, o2, o3⟩, (Option.some.inj h).symm,
          by rw [List.append_nil]; rfl, h0, h2, h3⟩
      | cons b t => cases h
    case h_2 => cases h
  · rintro ⟨flags, count, ⟨kind, width, ⟨sp, sf⟩, l, word, o2, o3⟩, rfl, rfl, h0, h2, h3⟩
    have hlabel : ∀ t, takeLabel true (wordBytes word ++ t) = some (some word, t) := fun t =>
      takeLabel_eq_some.mpr ⟨rfl, rfl⟩
    have hlast : takePair flags[1] (pairBytes o3) = some (o3, []) :=
      takePair_eq_some.mpr ⟨h3, (List.append_nil _).symm⟩
    change Option.bind (takeEnds count.toNat _) _ = _
    dsimp only
    rw [takeEnds_eq_some.mpr ⟨h0, rfl⟩, Option.bind_some, hlabel, Option.bind_some,
      takeByte_eq_some.mpr ⟨h2, rfl⟩, Option.bind_some, hlast]
    rfl

end

end Sys2Proof.Proofs
end

section
/-! PROOFS. The request codes, what each layout measures, and the round trip of request frames (O54). -/

namespace Sys2Proof.Proofs

open Sys2Proof Sys2Proof.Machine

/-! ### What each layout measures -/

section
variable (params : List Byte)

theorem isSome_parseIdRevision (make : Half → Byte → Instr) :
    (parseIdRevision make params).isSome = true ↔ params.length = 3 := by
  unfold parseIdRevision
  split
  case h_1 => simp
  case h_2 hno => simpa [List.length_eq_three] using hno

theorem isSome_parseId (make : Half → Instr) : (parseId make params).isSome = true ↔ params.length = 2 := by
  unfold parseId
  split
  case h_1 => simp
  case h_2 hno => simpa [List.length_eq_two] using hno

theorem isSome_parseFind : (parseFind params).isSome = true ↔ params.length = 3 := by
  unfold parseFind
  split
  case h_1 => simp
  case h_2 hno => simpa [List.length_eq_three] using hno

theorem isSome_parsePort (make : Byte → Instr) : (parsePort make params).isSome = true ↔ params.length = 1 := by
  unfold parsePort
  split
  case h_1 => simp
  case h_2 hno => simpa [List.length_eq_one_iff] using hno

theorem isSome_parsePortLoop : (parsePortLoop params).isSome = true ↔ params.length = 2 := by
  unfold parsePortLoop
  split
  case h_1 => simp
  case h_2 hno => simpa [List.length_eq_two] using hno

theorem isSome_parseRefSelect : (parseRefSelect params).isSome = true ↔ params.length = 2 := by
  unfold parseRefSelect
  split
  case h_1 => simp
  case h_2 hno => simpa [List.length_eq_two] using hno

theorem isSome_parseNone (i : Instr) : (parseNone i params).isSome = true ↔ params.length = 0 := by
  unfold parseNone
  split
  case h_1 => simp
  case h_2 hno => simpa using hno

theorem isSome_parseSwitch : (parseSwitch params).isSome = true ↔ params.length = 4 := by
  match params with
  | [] | [_] | [_, _] | [_, _, _] | [_, _, _, _] => simp [parseSwitch]
  | _ :: _ :: _ :: _ :: _ :: _ => simp [parseSwitch]

theorem isSome_parsePortSendCode : (parsePortSendCode params).isSome = true ↔ params.length = 4 := by
  match params with
  | [] | [_] | [_, _] | [_, _, _] | [_, _, _, _] => simp [parsePortSendCode]
  | _ :: _ :: _ :: _ :: _ :: _ => simp [parsePortSendCode]

theorem isSome_parseProtect : (parseProtect params).isSome = true ↔ params.length = 6 ∨ params.length = 7 := by
  match params with
  | [] | [_] | [_, _] | [_, _, _] | [_, _, _, _] | [_, _, _, _, _] => simp [parseProtect]
  | [_, _, _, _, _, _] | [_, _, _, _, _, _, _] => simp [parseProtect]
  | _ :: _ :: _ :: _ :: _ :: _ :: _ :: _ :: _ => simp [parseProtect]

/-- The last field of a layout: nothing stands after it. -/
theorem isSome_last {α β : Type} (make : α → β) (x : α × List Byte) :
    (match x.2 with | [] => some (make x.1) | _ :: _ => none).isSome = true ↔ x.2.length = 0 := by
  cases x.2 <;> simp

theorem isSome_parseAttnEnable : (parseAttnEnable params).isSome = true ↔
    params.length = 1 + ((params.getD 0 0).getLsbD 0).toNat + ((params.getD 0 0).getLsbD 1).toNat := by
  cases params with
  | nil =>
    simp [parseAttnEnable]
  | cons mask r =>
    have hsize := isSome_bind (consumes_takeByte mask[0]) (fun m => isSome_bind (consumes_takeByte mask[1])
      (isSome_last fun s => Instr.attnEnable m.1 s) m.2) r
    refine hsize.trans ?_
    rw [List.length_cons]
    change _ ↔ r.length + 1 = 1 + mask[0].toNat + mask[1].toNat
    omega

theorem isSome_parsePortSet : (parsePortSet params).isSome = true ↔
    params.length = 2 + ((params.getD 1 0).getLsbD 0).toNat +
      ((params.getD 1 0).getLsbD 1).toNat + ((params.getD 1 0).getLsbD 2).toNat +
      ((params.getD 1 0).getLsbD 3).toNat + ((params.getD 1 0).getLsbD 4).toNat +
      ((params.getD 1 0).getLsbD 5).toNat := by
  match params with
  | [] | [_] =>
    refine iff_of_false Bool.false_ne_true ?_
    dsimp only [List.length_cons, List.length_nil]
    omega
  | port :: mask :: r =>
    have hsize := isSome_bind (consumes_takeByte mask[0]) (fun a => isSome_bind (consumes_takeByte mask[1])
      (fun b => isSome_bind (consumes_takeByte mask[2]) (fun c => isSome_bind (consumes_takeByte mask[3])
      (fun d => isSome_bind (consumes_takeByte mask[4]) (fun e => isSome_bind (consumes_takeByte mask[5])
      (isSome_last fun f => Instr.portSet ⟨port, a.1, b.1, c.1, d.1, e.1, f⟩) e.2) d.2) c.2) b.2) a.2) r
    refine hsize.trans ?_
    rw [List.length_cons, List.length_cons]
    change _ ↔ r.length + 1 + 1 = 2 + mask[0].toNat + mask[1].toNat + mask[2].toNat + mask[3].toNat +
      mask[4].toNat + mask[5].toNat
    omega

theorem isSome_parseModify : (parseModify params).isSome = true ↔
    params.length = 4 + 4 * ((params.getD 3 0).getLsbD 0).toNat +
      ((params.getD 3 0).getLsbD 1).toNat + ((params.getD 3 0).getLsbD 2).toNat +
      ((params.getD 3 0).getLsbD 3).toNat + 2 * ((params.getD 3 0).getLsbD 4).toNat +
      ((params.getD 3 0).getLsbD 5).toNat := by
  match params with
  | [] | [_] | [_, _] | [_, _, _] =>
    refine iff_of_false Bool.false_ne_true ?_
    dsimp only [List.length_cons, List.length_nil]
    omega
  | hi :: lo :: expected :: mask :: r =>
    have hsize := isSome_bind (consumes_takeLabel mask[0]) (fun a => isSome_bind (consumes_takeByte mask[1])
      (fun b => isSome_bind (consumes_takeByte mask[2]) (fun c => isSome_bind (consumes_takeByte mask[3])
      (fun d => isSome_bind (consumes_takeEnd mask[4]) (fun e => isSome_bind (consumes_takeByte mask[5])
      (isSome_last fun f => Instr.modify ⟨half hi lo, expected, a.1, b.1, c.1, d.1, e.1, f⟩)
      e.2) d.2) c.2) b.2) a.2) r
    refine hsize.trans ?_
    simp only [List.length_cons]
    change _ ↔ r.length + 1 + 1 + 1 + 1 = 4 + 4 * mask[0].toNat + mask[1].toNat + mask[2].toNat + mask[3].toNat +
      2 * mask[4].toNat + mask[5].toNat
    omega

theorem labelled_isSome {r : List Byte} {x : Option Label × List Byte} (h : takeLabel true r = some x) :
    x.1.isSome = true := by
  obtain ⟨o, t⟩ := x
  exact (takeLabel_eq_some.mp h).1

theorem isSome_labelled (kind width : Byte) (source : RawEnd) (dests : List RawEnd) {label : Option Label}
    (h : label.isSome = true) (code : Option Byte) (x : Option (Byte × Byte) × List Byte) :
    (match x.2, label with
      | [], some l => some (Instr.connect ⟨kind, width, source, dests, l, code, x.1⟩)
      | _, _ => none).isSome = true ↔ x.2.length = 0 := by
  obtain ⟨l, rfl⟩ := Option.isSome_iff_exists.mp h
  cases x.2 <;> simp

theorem isSome_parseConnect : (parseConnect params).isSome = true ↔
    params.length = 10 + 2 * (params.getD 5 0).toNat +
      ((params.getD 2 0).getLsbD 0).toNat + 2 * ((params.getD 2 0).getLsbD 1).toNat := by
  match params with
  | [] | [_] | [_, _] | [_, _, _] | [_, _, _, _] | [_, _, _, _, _] =>
    refine iff_of_false Bool.false_ne_true ?_
    dsimp only [List.length_cons, List.length_nil]
    omega
  | kind :: width :: flags :: sp :: sf :: count :: r =>
    have hsize := isSome_bind (consumes_takeEnds count.toNat) (fun a => isSome_bind_of
      (consumes_takeLabel true) (r := a.2) fun b hb => isSome_bind (consumes_takeByte flags[0]) (fun c => isSome_bind
      (consumes_takePair flags[1]) (isSome_labelled kind width ⟨sp, sf⟩ a.1 (labelled_isSome hb) c.1) c.2) b.2) r
    refine hsize.trans ?_
    simp only [List.length_cons]
    change r.length = 2 * count.toNat + (4 + (flags[0].toNat + (2 * flags[1].toNat + 0))) ↔
      r.length + 1 + 1 + 1 + 1 + 1 + 1 = 10 + 2 * count.toNat + flags[0].toNat + 2 * flags[1].toNat
    omega

end

end Sys2Proof.Proofs
end

section
/-! PROOFS. Request frames read back (O54). -/

namespace Sys2Proof.Proofs

open Sys2Proof Sys2Proof.Machine

/-! ### The request codes (R188) -/

/-- The codes of the requests. -/
def requestCodes : List Byte :=
  [0x10, 0x11, 0x12, 0x13, 0x14, 0x15, 0x16, 0x17, 0x20, 0x21, 0x22, 0x30, 0x31, 0x32, 0x33, 0x34, 0x35, 0x40,
    0x41, 0x50, 0x5A]

theorem unlisted {code : Byte} (h : code ∉ requestCodes) {n : Nat} (hn : n ∈ requestCodes.map BitVec.toNat) :
    code.toNat ≠ n := by
  rintro rfl
  obtain ⟨c, hc, heq⟩ := List.mem_map.mp hn
  exact h (BitVec.eq_of_toNat_eq heq ▸ hc)

theorem parseParams_unlisted {code : Byte} (h : code ∉ requestCodes) (params : List Byte) :
    parseParams code params = none := by
  unfold parseParams
  split
  case h_22 => rfl
  all_goals
    rename_i heq
    exact absurd heq (unlisted h (by decide))

/-! ### The bits a frame leaves unassigned -/

/-- The parameters with the unassigned bits of their flags or mask cleared (R188). -/
def assigned (code : Byte) (params : List Byte) : List Byte :=
  if code = 0x10 then params.modify 2 (· &&& 0x03)
  else if code = 0x11 then params.modify 3 (· &&& 0x3F)
  else if code = 0x30 then params.modify 1 (· &&& 0x3F)
  else if code = 0x41 then params.modify 0 (· &&& 0x03)
  else params

theorem length_assigned (code : Byte) (params : List Byte) : (assigned code params).length = params.length := by
  unfold assigned
  split_ifs <;> simp

theorem getElem?_assigned (code : Byte) (params : List Byte) {k : Nat} {v : Byte} (h : params[k]? = some v) :
    (assigned code params)[k]? = some
      (if (code = 0x10 ∧ k = 2) ∨ (code = 0x41 ∧ k = 0) then v &&& 0x03
      else if (code = 0x11 ∧ k = 3) ∨ (code = 0x30 ∧ k = 1) then v &&& 0x3F else v) := by
  have hmodify : ∀ (j : Nat) (m : Byte),
      (params.modify j (· &&& m))[k]? = some (if k = j then v &&& m else v) := by
    intro j m
    rw [List.getElem?_modify, h]
    by_cases hk : j = k
    · simp [hk]
    · simp [hk, Ne.symm hk]
  unfold assigned
  by_cases h10 : code = 0x10
  · subst h10
    simp [hmodify]
  by_cases h11 : code = 0x11
  · subst h11
    simp [hmodify]
  by_cases h30 : code = 0x30
  · subst h30
    simp [hmodify]
  by_cases h41 : code = 0x41
  · subst h41
    simp [hmodify]
  have htwo : ¬ ((code = 0x10 ∧ k = 2) ∨ (code = 0x41 ∧ k = 0)) := by tauto
  have hsix : ¬ ((code = 0x11 ∧ k = 3) ∨ (code = 0x30 ∧ k = 1)) := by tauto
  rw [if_neg h10, if_neg h11, if_neg h30, if_neg h41, if_neg htwo, if_neg hsix, h]

theorem maskByte_two (b : Byte) : maskByte [b[0], b[1]] = b &&& 0x03 := by
  revert b
  decide +kernel

theorem maskByte_six (b : Byte) : maskByte [b[0], b[1], b[2], b[3], b[4], b[5]] = b &&& 0x3F := by
  revert b
  decide +kernel

theorem getElem_maskByte_two (x y : Bool) : (maskByte [x, y])[0] = x ∧ (maskByte [x, y])[1] = y := by
  revert x y
  decide

theorem getElem_maskByte_six (u v w x y z : Bool) :
    (maskByte [u, v, w, x, y, z])[0] = u ∧ (maskByte [u, v, w, x, y, z])[1] = v ∧
    (maskByte [u, v, w, x, y, z])[2] = w ∧ (maskByte [u, v, w, x, y, z])[3] = x ∧
    (maskByte [u, v, w, x, y, z])[4] = y ∧ (maskByte [u, v, w, x, y, z])[5] = z := by
  revert u v w x y z
  decide

/-! ### What is read is what is written -/

/-- A request read from parameters is written with those parameters, the unassigned bits cleared. -/
theorem encodeParams_of_parseParams {code : Byte} {params : List Byte} {i : Instr}
    (h : parseParams code params = some i) : encodeParams i = some (code, assigned code params) := by
  by_cases hcode : code ∈ requestCodes
  · simp only [requestCodes, List.mem_cons, List.not_mem_nil, or_false] at hcode
    rcases hcode with rfl | rfl | rfl | rfl | rfl | rfl | rfl | rfl | rfl | rfl | rfl | rfl | rfl | rfl | rfl | rfl |
      rfl | rfl | rfl | rfl | rfl
    · obtain ⟨flags, count, q, rfl, rfl, hcount, hcode, hprofile⟩ := parseConnect_eq_some.mp h
      have hcount' : BitVec.ofNat 8 q.dests.length = count := by
        rw [hcount, BitVec.ofNat_toNat, BitVec.setWidth_eq]
      rw [encodeParams, hcode, hprofile, maskByte_two, hcount']
      simp only [List.append_assoc]
      rfl
    · obtain ⟨mask, q, rfl, rfl, h0, h1, h2, h3, h4, h5⟩ := parseModify_eq_some.mp h
      rw [encodeParams, h0, h1, h2, h3, h4, h5, maskByte_six]
      simp only [List.append_assoc]
      rfl
    · obtain ⟨id, e, rfl, rfl⟩ := parseIdRevision_eq_some.mp h
      rfl
    · obtain ⟨id, e, rfl, rfl⟩ := parseIdRevision_eq_some.mp h
      rfl
    · obtain ⟨id, e, rfl, rfl⟩ := parseIdRevision_eq_some.mp h
      rfl
    · obtain ⟨id, rfl, rfl⟩ := parseId_eq_some.mp h
      rfl
    · obtain ⟨p, sl, d, rfl, rfl⟩ := parseFind_eq_some.mp h
      rfl
    · obtain ⟨id, rfl, rfl⟩ := parseId_eq_some.mp h
      rfl
    · obtain ⟨q, rfl, rfl⟩ := parseProtect_eq_some.mp h
      rfl
    · obtain ⟨id, e, rfl, rfl⟩ := parseIdRevision_eq_some.mp h
      rfl
    · obtain ⟨id, e, c, rfl, rfl⟩ := parseSwitch_eq_some.mp h
      rfl
    · obtain ⟨mask, q, rfl, rfl, h0, h1, h2, h3, h4, h5⟩ := parsePortSet_eq_some.mp h
      rw [encodeParams, h0, h1, h2, h3, h4, h5, maskByte_six]
      simp only [List.append_assoc]
      rfl
    · obtain ⟨p, rfl, rfl⟩ := parsePort_eq_some.mp h
      rfl
    · obtain ⟨p, rfl, rfl⟩ := parsePort_eq_some.mp h
      rfl
    · obtain ⟨p, c, rfl, rfl⟩ := parsePortLoop_eq_some.mp h
      rfl
    · obtain ⟨p, c, k, rfl, rfl⟩ := parsePortSendCode_eq_some.mp h
      rfl
    · obtain ⟨x, p, rfl, rfl⟩ := parseRefSelect_eq_some.mp h
      rfl
    · obtain ⟨rfl, rfl⟩ := parseNone_eq_some.mp h
      rfl
    · obtain ⟨mask, m, s, rfl, rfl, h0, h1⟩ := parseAttnEnable_eq_some.mp h
      rw [encodeParams, h0, h1, maskByte_two]
      simp only [List.append_assoc]
      rfl
    · obtain ⟨rfl, rfl⟩ := parseNone_eq_some.mp h
      rfl
    · obtain ⟨rfl, rfl⟩ := parseNone_eq_some.mp h
      rfl
  · rw [parseParams_unlisted hcode] at h
    cases h

theorem parseParams_connect (params : List Byte) : parseParams 0x10 params = parseConnect params := rfl
theorem parseParams_modify (params : List Byte) : parseParams 0x11 params = parseModify params := rfl
theorem parseParams_portSet (params : List Byte) : parseParams 0x30 params = parsePortSet params := rfl
theorem parseParams_attnEnable (params : List Byte) : parseParams 0x41 params = parseAttnEnable params := rfl

/-- And a well-formed request written is read back. -/
theorem parseParams_of_encodeParams {i : Instr} (hwf : i.wf = true) {code : Byte} {params : List Byte}
    (h : encodeParams i = some (code, params)) : parseParams code params = some i := by
  cases i
  case connect q =>
    have hlength : q.dests.length < 256 := by
      have hq : q.length ≤ 29 := of_decide_eq_true hwf
      unfold ConnectReq.length at hq
      omega
    obtain ⟨hcode, hprofile⟩ := getElem_maskByte_two q.code.isSome q.profile.isSome
    cases h
    refine (parseParams_connect _).trans (parseConnect_eq_some.mpr
      ⟨_, BitVec.ofNat 8 q.dests.length, q, rfl, ?_, ?_, hcode.symm, hprofile.symm⟩)
    · simp only [List.append_assoc]
      rfl
    · rw [BitVec.toNat_ofNat, Nat.mod_eq_of_lt hlength]
  case modify q =>
    obtain ⟨h0, h1, h2, h3, h4, h5⟩ := getElem_maskByte_six q.label.isSome q.code.isSome q.holdOff.isSome
      q.clearTime.isSome q.add.isSome q.remove.isSome
    cases h
    refine (parseParams_modify _).trans (parseModify_eq_some.mpr
      ⟨_, q, rfl, ?_, h0.symm, h1.symm, h2.symm, h3.symm, h4.symm, h5.symm⟩)
    simp only [List.append_assoc]
    rfl
  case retire | hold | release | unprotect =>
    cases h
    exact parseIdRevision_eq_some.mpr ⟨_, _, rfl, rfl⟩
  case query | nextRecord =>
    cases h
    exact parseId_eq_some.mpr ⟨_, rfl, rfl⟩
  case find => cases h; rfl
  case protect q =>
    cases h
    exact parseProtect_eq_some.mpr ⟨q, rfl, rfl⟩
  case switch =>
    cases h
    exact parseSwitch_eq_some.mpr ⟨_, _, _, rfl, rfl⟩
  case portSet q =>
    obtain ⟨h0, h1, h2, h3, h4, h5⟩ := getElem_maskByte_six q.enable.isSome q.idleCode.isSome
      q.codeResponse.isSome q.farSend.isSome q.threshold.isSome q.loopTimeout.isSome
    cases h
    refine (parseParams_portSet _).trans (parsePortSet_eq_some.mpr
      ⟨_, q, rfl, ?_, h0.symm, h1.symm, h2.symm, h3.symm, h4.symm, h5.symm⟩)
    simp only [List.append_assoc]
    rfl
  case portSendCode =>
    cases h
    exact parsePortSendCode_eq_some.mpr ⟨_, _, _, rfl, rfl⟩
  case portQuery | portClearCounts | portLoop | refSelect | attention | deviceQuery | deviceReset => cases h; rfl
  case attnEnable m s =>
    obtain ⟨h0, h1⟩ := getElem_maskByte_two m.isSome s.isSome
    cases h
    refine (parseParams_attnEnable _).trans (parseAttnEnable_eq_some.mpr ⟨_, m, s, rfl, ?_, h0.symm, h1.symm⟩)
    simp only [List.append_assoc]
    rfl
  all_goals cases h

/-! ### Frames -/

theorem parseFrame_eq_some {frame : List Byte} {i : Instr} : parseFrame frame = some i ↔
    ∃ code tag len params, frame = code :: tag :: len :: params ∧ len.toNat ≤ 29 ∧
      parseParams code params = some i := by
  constructor
  · intro h
    unfold parseFrame at h
    split at h
    case h_1 code tag len params =>
      split at h
      case isTrue hlen => exact ⟨code, tag, len, params, rfl, hlen, h⟩
      case isFalse => cases h
    case h_2 => cases h
  · rintro ⟨code, tag, len, params, rfl, hlen, h⟩
    exact (if_pos hlen).trans h

theorem isSome_parseFrame (code tag len : Byte) (params : List Byte) :
    (parseFrame (code :: tag :: len :: params)).isSome = true ↔
      len.toNat ≤ 29 ∧ (parseParams code params).isSome = true := by
  by_cases hlen : len.toNat ≤ 29
  · rw [show parseFrame (code :: tag :: len :: params) = parseParams code params from if_pos hlen]
    exact (and_iff_right hlen).symm
  · rw [show parseFrame (code :: tag :: len :: params) = none from if_neg hlen]
    exact iff_of_false Bool.false_ne_true fun h => hlen h.1

/-- The parameters of a well-formed request fit a frame (R173). -/
theorem length_encodeParams {i : Instr} (hwf : i.wf = true) {x : Byte × List Byte} (h : encodeParams i = some x) :
    x.2.length ≤ 29 := by
  cases i
  case connect => exact Laws.Encoding.connect _ hwf _ h
  case modify => exact Laws.Encoding.modify _ hwf _ h
  case protect => exact Laws.Encoding.protect _ hwf _ h
  case portSet => exact Laws.Encoding.portSet _ hwf _ h
  case attnEnable => exact Laws.Encoding.attnEnable _ _ hwf _ h
  case retire => exact Laws.Encoding.retire _ _ hwf _ h
  case hold => exact Laws.Encoding.hold _ _ hwf _ h
  case release => exact Laws.Encoding.release _ _ hwf _ h
  case query => exact Laws.Encoding.query _ hwf _ h
  case find => exact Laws.Encoding.find _ _ _ hwf _ h
  case nextRecord => exact Laws.Encoding.nextRecord _ hwf _ h
  case unprotect => exact Laws.Encoding.unprotect _ _ hwf _ h
  case switch => exact Laws.Encoding.switch _ _ _ hwf _ h
  case portQuery => exact Laws.Encoding.portQuery _ hwf _ h
  case portClearCounts => exact Laws.Encoding.portClearCounts _ hwf _ h
  case portLoop => exact Laws.Encoding.portLoop _ _ hwf _ h
  case portSendCode => exact Laws.Encoding.portSendCode _ _ _ hwf _ h
  case refSelect => exact Laws.Encoding.refSelect _ _ hwf _ h
  case attention => exact Laws.Encoding.attention hwf _ h
  case deviceQuery => exact Laws.Encoding.deviceQuery hwf _ h
  case deviceReset => exact Laws.Encoding.deviceReset hwf _ h
  all_goals cases h

/-- A request whose parameters fit a frame is well formed. -/
theorem wf_of_encodeParams {i : Instr} {x : Byte × List Byte} (h : encodeParams i = some x) (hlen : x.2.length ≤ 29) :
    i.wf = true := by
  cases i
  case connect q =>
    refine decide_eq_true ?_
    rw [← Option.some.inj h] at hlen
    simp only [List.length_append, Laws.Encoding.length_ends, Laws.Encoding.length_some,
      Laws.Encoding.length_profile, List.length_cons, List.length_nil, wordBytes] at hlen
    unfold ConnectReq.length
    change _ ≤ 29
    omega
  case lastOperationSet => cases h
  case verifyCheck | alignedFrameReceived | frameWriteComplete | slipBufferSlotWritten => cases h
  all_goals rfl

theorem frame_of_encodeFrame {i : Instr} {tag : Byte} {frame : List Byte} (h : encodeFrame tag i = some frame) :
    ∃ code params, encodeParams i = some (code, params) ∧
      frame = code :: tag :: BitVec.ofNat 8 params.length :: params := by
  obtain ⟨⟨code, params⟩, hx, rfl⟩ := Option.map_eq_some_iff.mp h
  exact ⟨code, params, hx, rfl⟩

/-- Settles O54. -/
theorem requestFramesRoundTrip : Obligations.RequestFramesRoundTrip := by
  refine ⟨fun i tag frame hwf henc => ?_, fun i frame hlen h => ?_, fun frame hshort => ?_,
    fun code tag len params => ⟨?_, fun i h => ?_⟩⟩
  · obtain ⟨code, params, hx, rfl⟩ := frame_of_encodeFrame henc
    have hfit : params.length ≤ 29 := length_encodeParams hwf hx
    have hlen : (BitVec.ofNat 8 params.length).toNat = params.length := by
      rw [BitVec.toNat_ofNat]
      exact Nat.mod_eq_of_lt (by omega)
    refine ⟨parseFrame_eq_some.mpr ⟨code, tag, _, params, rfl, by rw [hlen]; exact hfit,
      parseParams_of_encodeParams hwf hx⟩, ?_, ?_, rfl⟩
    · simp only [List.length_cons]
      omega
    · rw [frameComplete_long, hlen]
      exact .inr (Nat.le_refl _)
  · obtain ⟨code, tag, len, params, rfl, -, hparse⟩ := parseFrame_eq_some.mp h
    refine wf_of_encodeParams (encodeParams_of_parseParams hparse) ?_
    rw [length_assigned]
    simp only [List.length_cons] at hlen
    omega
  · match frame, hshort with
    | [], _ | [_], _ | [_, _], _ => rfl
  · refine (isSome_parseFrame code tag len params).trans (and_congr_right fun _ => ?_)
    by_cases hcode : code ∈ requestCodes
    · simp only [requestCodes, List.mem_cons, List.not_mem_nil, or_false] at hcode
      rcases hcode with rfl | rfl | rfl | rfl | rfl | rfl | rfl | rfl | rfl | rfl | rfl | rfl | rfl | rfl | rfl | rfl |
        rfl | rfl | rfl | rfl | rfl
      · exact isSome_parseConnect params
      · exact isSome_parseModify params
      · exact isSome_parseIdRevision params _
      · exact isSome_parseIdRevision params _
      · exact isSome_parseIdRevision params _
      · exact isSome_parseId params _
      · exact isSome_parseFind params
      · exact isSome_parseId params _
      · exact isSome_parseProtect params
      · exact isSome_parseIdRevision params _
      · exact isSome_parseSwitch params
      · exact isSome_parsePortSet params
      · exact isSome_parsePort params _
      · exact isSome_parsePort params _
      · exact isSome_parsePortLoop params
      · exact isSome_parsePortSendCode params
      · exact isSome_parseRefSelect params
      · exact isSome_parseNone params _
      · exact isSome_parseAttnEnable params
      · exact isSome_parseNone params _
      · exact isSome_parseNone params _
    · rw [parseParams_unlisted hcode]
      refine iff_of_false Bool.false_ne_true ?_
      split
      case h_22 => exact id
      all_goals
        rename_i heq
        exact absurd heq (unlisted hcode (by decide))
  · obtain ⟨_, _, _, _, heq, -, hparse⟩ := parseFrame_eq_some.mp h
    cases heq
    exact ⟨_, encodeParams_of_parseParams hparse, length_assigned code params,
      fun k v hv => getElem?_assigned code params hv⟩

end Sys2Proof.Proofs
end

section
/-! PROOFS. Postings in a row: what they leave in place, and what they add at the tail (R163). -/

namespace Sys2Proof.Proofs

open Sys2Proof Sys2Proof.Machine

/-! ### One posting -/

/-- A posting to a subject with an entry is merged in place. -/
theorem postTo_merges {before after : List Entry} {e : Entry} {x : Subject} (hx : e.subject = x)
    (hno : ∀ a ∈ before, a.subject ≠ x) (k : Change) :
    postTo (before ++ e :: after) x k = before ++ ⟨x, e.summary.add k⟩ :: after := by
  induction before with
  | nil =>
    rw [List.nil_append, postTo, if_pos hx, ← hx]
    rfl
  | cons a before ih =>
    rw [List.cons_append, postTo, if_neg (hno a (List.mem_cons_self ..)),
      ih fun b hb => hno b (List.mem_cons_of_mem _ hb)]
    rfl

theorem subjects_postTo (l : List Entry) (x : Subject) (k : Change) : (postTo l x k).map Entry.subject =
    l.map Entry.subject ++ if x ∈ l.map Entry.subject then [] else [x] := by
  induction l with
  | nil => rfl
  | cons e l ih =>
    by_cases h : e.subject = x
    · simp [postTo, h]
    · simp only [postTo, if_neg h, List.map_cons, ih, List.mem_cons, Ne.symm h, false_or]
      rfl

theorem getElem?_postTo {l : List Entry} {i : Nat} {e : Entry} (h : l[i]? = some e) (x : Subject) (k : Change) :
    ∃ e', (postTo l x k)[i]? = some e' ∧ ∀ d, e.summary.has d = true → e'.summary.has d = true := by
  induction l generalizing i with
  | nil => cases h
  | cons a l ih =>
    by_cases ha : a.subject = x
    · cases i with
      | zero =>
        obtain rfl := Option.some.inj h
        refine ⟨_, by rw [postTo, if_pos ha]; rfl, fun d hd => ?_⟩
        simp [Summary.has_add, hd]
      | succ i =>
        exact ⟨e, by rw [postTo, if_pos ha]; exact h, fun d hd => hd⟩
    · cases i with
      | zero =>
        exact ⟨e, by rw [postTo, if_neg ha]; exact h, fun d hd => hd⟩
      | succ i =>
        obtain ⟨e', he', hhas⟩ := ih h
        exact ⟨e', by rw [postTo, if_neg ha]; exact he', hhas⟩

/-! ### Postings in a row -/

def postAll (l : List Entry) (ps : List (Subject × Change)) : List Entry :=
  ps.foldl (fun l p => postTo l p.1 p.2) l

theorem postAll_append (l : List Entry) (ps qs : List (Subject × Change)) :
    postAll l (ps ++ qs) = postAll (postAll l ps) qs := List.foldl_append

/-- The list grows at its tail alone, by subjects posted that it did not hold, each once. -/
theorem subjects_postAll (l : List Entry) (ps : List (Subject × Change)) : ∃ new : List Subject,
    (postAll l ps).map Entry.subject = l.map Entry.subject ++ new ∧ new.Sublist (ps.map Prod.fst) ∧ new.Nodup ∧
      ∀ x ∈ new, x ∉ l.map Entry.subject := by
  induction ps generalizing l with
  | nil => exact ⟨[], (List.append_nil _).symm, .slnil, .nil, by simp⟩
  | cons p ps ih =>
    obtain ⟨new, heq, hsub, hnodup, habsent⟩ := ih (postTo l p.1 p.2)
    rw [subjects_postTo] at heq habsent
    by_cases h : p.1 ∈ l.map Entry.subject
    · rw [if_pos h, List.append_nil] at heq habsent
      exact ⟨new, heq, hsub.cons _, hnodup, habsent⟩
    · rw [if_neg h] at heq habsent
      refine ⟨p.1 :: new, ?_, hsub.cons_cons _, ?_, fun x hx => ?_⟩
      · rw [postAll, List.foldl_cons]
        exact heq.trans (List.append_assoc ..)
      · exact List.nodup_cons.mpr ⟨fun hin => habsent _ hin (by simp), hnodup⟩
      · obtain rfl | hin := List.mem_cons.mp hx
        · exact h
        · exact fun hl => habsent x hin (List.mem_append_left _ hl)

theorem getElem?_postAll (ps : List (Subject × Change)) {l : List Entry} {i : Nat} {e : Entry} (h : l[i]? = some e) :
    ∃ e', (postAll l ps)[i]? = some e' ∧ ∀ d, e.summary.has d = true → e'.summary.has d = true := by
  induction ps generalizing l e with
  | nil => exact ⟨e, h, fun d hd => hd⟩
  | cons p ps ih =>
    obtain ⟨e', he', hhas⟩ := getElem?_postTo h p.1 p.2
    obtain ⟨e'', he'', hhas'⟩ := ih he'
    exact ⟨e'', he'', fun d hd => hhas' d (hhas d hd)⟩

/-- A subject that is not posted keeps what is posted of it. -/
theorem posted_postAll_other {x : Subject} {d : Change} {ps : List (Subject × Change)} (h : ∀ p ∈ ps, p.1 ≠ x)
    (l : List Entry) : Posted (postAll l ps) x d ↔ Posted l x d := by
  induction ps generalizing l with
  | nil => exact Iff.rfl
  | cons p ps ih =>
    refine (ih (fun q hq => h q (List.mem_cons_of_mem _ hq)) _).trans ?_
    rw [posted_postTo]
    exact or_iff_left fun heq => h p (List.mem_cons_self ..) heq.1

/-! ### Postings in ascending order -/

/-- Of two records, and of two ports, the lower is posted first (R163). -/
def Ordered (x y : Subject) : Prop :=
  (∀ i j, x = .record i → y = .record j → i ≤ j) ∧ ∀ n m : PortNo, x = .port n → y = .port m → n ≤ m

theorem ordered_refl (x : Subject) : Ordered x x :=
  ⟨fun _ _ h h' => Nat.le_of_eq (Subject.record.inj (h.symm.trans h')),
    fun _ _ h h' => le_of_eq (Subject.port.inj (h.symm.trans h'))⟩

/-- A list becomes another by postings to subjects of a kind, in ascending order. -/
def Posts (P : Subject → Prop) (l l' : List Entry) : Prop :=
  ∃ ps : List (Subject × Change), l' = postAll l ps ∧ (ps.map Prod.fst).Pairwise Ordered ∧ ∀ p ∈ ps, P p.1

theorem Posts.refl (P : Subject → Prop) (l : List Entry) : Posts P l l := ⟨[], rfl, .nil, by simp⟩

theorem Posts.of_eq {P : Subject → Prop} {l l' : List Entry} (h : l' = l) : Posts P l l' := h ▸ .refl P l

theorem Posts.postTo {P : Subject → Prop} {x : Subject} (h : P x) (l : List Entry) (k : Change) :
    Posts P l (postTo l x k) :=
  ⟨[(x, k)], rfl, by simp, by simpa using h⟩

theorem Posts.append {P Q R : Subject → Prop} {l l' l'' : List Entry} (h : Posts P l l') (h' : Posts Q l' l'')
    (hord : ∀ x y, P x → Q y → Ordered x y) (hP : ∀ x, P x → R x) (hQ : ∀ x, Q x → R x) : Posts R l l'' := by
  obtain ⟨ps, rfl, hps, hmem⟩ := h
  obtain ⟨qs, rfl, hqs, hmem'⟩ := h'
  refine ⟨ps ++ qs, (postAll_append ..).symm, ?_, fun p hp => ?_⟩
  · rw [List.map_append]
    refine List.pairwise_append.mpr ⟨hps, hqs, fun x hx y hy => ?_⟩
    obtain ⟨p, hp, rfl⟩ := List.mem_map.mp hx
    obtain ⟨q, hq, rfl⟩ := List.mem_map.mp hy
    exact hord _ _ (hmem p hp) (hmem' q hq)
  · obtain hp | hp := List.mem_append.mp hp
    · exact hP _ (hmem p hp)
    · exact hQ _ (hmem' p hp)

/-- Postings to one subject, and more of them. -/
theorem Posts.trans {x : Subject} {l l' l'' : List Entry} (h : Posts (· = x) l l') (h' : Posts (· = x) l' l'') :
    Posts (· = x) l l'' :=
  h.append h' (fun y z hy hz => by rw [hy, hz]; exact ordered_refl x) (fun _ h => h) fun _ h => h

theorem Posts.mono {P Q : Subject → Prop} {l l' : List Entry} (h : Posts P l l') (hPQ : ∀ x, P x → Q x) :
    Posts Q l l' := by
  obtain ⟨ps, heq, hps, hmem⟩ := h
  exact ⟨ps, heq, hps, fun p hp => hPQ _ (hmem p hp)⟩

theorem Posts.posted_other {P : Subject → Prop} {l l' : List Entry} (h : Posts P l l') {x : Subject} {d : Change}
    (hx : ¬ P x) : Posted l' x d ↔ Posted l x d := by
  obtain ⟨ps, rfl, -, hmem⟩ := h
  exact posted_postAll_other (fun p hp (heq : p.1 = x) => hx (heq ▸ hmem p hp)) l

theorem posts_postIf (s : State) (b : Bool) (x : Subject) (k : Change) :
    Posts (· = x) s.attention (s.postIf b x k).attention := by
  cases b with
  | false => exact .refl _ _
  | true => exact Posts.postTo (P := (· = x)) rfl s.attention k

/-- Steps that each post to one subject, taken in order. -/
theorem posts_foldl {α : Type} {sub : α → Subject} {f : State → α → State}
    (hf : ∀ u a, Posts (· = sub a) u.attention (f u a).attention) {l : List α}
    (hl : l.Pairwise fun a b => Ordered (sub a) (sub b)) (u : State) :
    Posts (fun x => ∃ a ∈ l, x = sub a) u.attention (l.foldl f u).attention := by
  induction l generalizing u with
  | nil => exact .refl _ _
  | cons a l ih =>
    obtain ⟨ha, hl⟩ := List.pairwise_cons.mp hl
    refine (hf u a).append (ih hl (f u a)) ?_ (fun x hx => ⟨a, List.mem_cons_self .., hx⟩) ?_
    · rintro x y rfl ⟨b, hb, rfl⟩
      exact ha b hb
    · rintro x ⟨b, hb, rfl⟩
      exact ⟨b, List.mem_cons_of_mem _ hb, rfl⟩

/-- What such postings add, and what they keep. -/
theorem Posts.grows {P : Subject → Prop} {l l' : List Entry} (h : Posts P l l') :
    (∃ new : List Subject, l'.map Entry.subject = l.map Entry.subject ++ new ∧
      new.Pairwise fun a b => (∀ i j, a = .record i → b = .record j → i < j) ∧
        ∀ n m : PortNo, a = .port n → b = .port m → n < m) ∧
    ∀ (i : Nat) (e : Entry), l[i]? = some e →
      ∃ e', l'[i]? = some e' ∧ ∀ d, e.summary.has d = true → e'.summary.has d = true := by
  obtain ⟨ps, rfl, hps, -⟩ := h
  obtain ⟨new, heq, hsub, hnodup, -⟩ := subjects_postAll l ps
  refine ⟨⟨new, heq, ?_⟩, fun i e he => getElem?_postAll ps he⟩
  refine ((hps.sublist hsub).and hnodup).imp ?_
  rintro a b ⟨⟨hrecord, hport⟩, hne⟩
  refine ⟨fun i j ha hb => ?_, fun n m ha hb => ?_⟩
  · refine Nat.lt_of_le_of_ne (hrecord i j ha hb) fun hij => hne ?_
    rw [ha, hb, hij]
  · refine lt_of_le_of_ne (hport n m ha hb) fun hnm => hne ?_
    rw [ha, hb, hnm]

end Sys2Proof.Proofs
end

section
/-! PROOFS. What each step posts, and to which subjects (R163). -/

namespace Sys2Proof.Proofs

open Sys2Proof Sys2Proof.Machine

/-- A record is the subject. -/
def IsRecord (x : Subject) : Prop := ∃ id, x = .record id

theorem ordered_record_port (id : Nat) (n : PortNo) : Ordered (.record id) (.port n) :=
  ⟨fun _ _ _ h => Subject.noConfusion h, fun _ _ h => Subject.noConfusion h⟩

theorem ordered_records {i j : Nat} (h : i ≤ j) : Ordered (.record i) (.record j) := by
  refine ⟨fun a b ha hb => ?_, fun _ _ h => Subject.noConfusion h⟩
  rw [← Subject.record.inj ha, ← Subject.record.inj hb]
  exact h

theorem ordered_ports {n m : PortNo} (h : n ≤ m) : Ordered (.port n) (.port m) := by
  refine ⟨fun _ _ h => Subject.noConfusion h, fun a b ha hb => ?_⟩
  rw [← Subject.port.inj ha, ← Subject.port.inj hb]
  exact h

/-- The listed keys of a sound table, and of a part of it, rise. -/
theorem ordered_keys {α : Type} {t : Table α} (w : t.wf) :
    t.keys.Pairwise fun a b => Ordered (.record a) (.record b) :=
  List.Pairwise.map _ (fun _ _ h => ordered_records (Nat.le_of_lt h)) w

/-! ### Ports -/

theorem posts_changePort (s : State) (n : PortNo) (q : Port) :
    Posts (· = .port n) s.attention (s.changePort n q).attention := by
  rw [attention_changePort]
  exact ((posts_postIf ..).trans (posts_postIf ..)).trans (posts_postIf ..)

theorem posts_changeCounted (s : State) (n : PortNo) (x : Port × Bool) :
    Posts (· = .port n) s.attention (s.changeCounted n x).attention :=
  (posts_changePort s n x.1).trans (posts_postIf ..)

theorem posts_changePorts (s : State) (f : Port → Port) :
    Posts (fun x => ∃ n ∈ List.finRange 16, x = .port n) s.attention (s.changePorts f).attention :=
  posts_foldl (sub := Subject.port) (fun u n => posts_changePort u n _)
    ((List.sortedLT_finRange 16).pairwise.imp fun h => ordered_ports (le_of_lt h)) s

/-! ### Records -/

theorem posts_commitContext (s : State) (id k : Nat) (b a : Context) :
    Posts (· = .record id) s.attention (s.commitContext id k b a).attention := by
  by_cases h : b.selected = a.selected
  · rw [commitContext_same h]
    exact .refl _ _
  · rw [commitContext_switch h]
    exact Posts.postTo (P := (· = .record id)) rfl _ _

theorem posts_handFails (s : State) (turn : Turn) (id : Nat) (r r' : Record) :
    Posts (· = .record id) s.attention (s.handFails turn id r r').attention := by
  unfold State.handFails
  split
  · exact posts_commitContext ..
  · exact .refl _ _

theorem posts_evaluateRecord (turn : Turn) (s : State) (id : Nat) :
    Posts (· = .record id) s.attention (s.evaluateRecord turn id).attention := by
  unfold State.evaluateRecord
  split
  · exact .refl _ _
  · split
    · refine Posts.trans ?_ (posts_handFails ..)
      exact posts_postIf (s.setRecord id _) _ _ _
    · exact .refl _ _

theorem posts_expireWait (turn : Turn) (s : State) (id : Nat) :
    Posts (· = .record id) s.attention (s.expireWait turn id).attention := by
  unfold State.expireWait
  split
  · exact .refl _ _
  · split
    · exact .refl _ _
    · split
      · exact posts_commitContext ..
      · exact .refl _ _

theorem attention_freeRecord (s : State) (id : Nat) (r : Record) : (s.freeRecord id r).attention = s.attention := by
  unfold State.freeRecord State.unbind
  split <;> rfl

theorem posts_recompute (s : State) (id : Nat) :
    Posts (· = .record id) s.attention (s.recompute id).attention := by
  unfold State.recompute
  split
  · exact .refl _ _
  case h_2 r _ =>
    split
    · have hretire : (s.retireAtFrame id r).attention = postTo s.attention (.record id) .state :=
        congrArg (postTo · (.record id) .state) (attention_freeRecord s id r)
      rw [hretire]
      exact Posts.postTo (P := (· = .record id)) rfl _ _
    · rw [installAtFrame_eq]
      exact posts_postIf (installed s id r) ..

/-- A sweep over the records posts to records. -/
theorem posts_records {f : State → Nat → State}
    (hf : ∀ u id, Posts (· = .record id) u.attention (f u id).attention) {t : Table Record} (w : t.wf) (s : State) :
    Posts IsRecord s.attention (t.keys.foldl f s).attention := by
  refine (posts_foldl (sub := Subject.record) hf (ordered_keys w) s).mono ?_
  rintro x ⟨id, -, rfl⟩
  exact ⟨id, rfl⟩

theorem RecordAct.posts {act : Nat → Record → State → Answer × State} (h : RecordAct act) (id : Nat) (r : Record)
    (s : State) : Posts (· = .record id) s.attention (act id r s).2.attention := by
  cases h with
  | modify q =>
    unfold modifyRecord modifyAdd modifyRemove
    repeat' split
    all_goals exact .refl _ _
  | retire =>
    unfold retireRecord
    split
    case h_1 => exact .of_eq (attention_freeRecord s id r)
    all_goals exact .refl _ _
  | hold => unfold holdRecord; split <;> exact .refl _ _
  | release => unfold releaseRecord; split <;> exact .refl _ _
  | protect q =>
    unfold protectRecord
    repeat' split
    all_goals exact .refl _ _
  | unprotect =>
    unfold unprotectRecord
    repeat' split
    all_goals exact .refl _ _
  | switch command =>
    unfold switchRecord
    split
    · exact .refl _ _
    split
    · exact .refl _ _
    split
    · exact .refl _ _
    split
    · exact .refl _ _
    · exact posts_commitContext ..

end Sys2Proof.Proofs
end

section
/-! PROOFS. What is posted of the line ports, and how every command posts (O15). -/

namespace Sys2Proof.Proofs

open Sys2Proof Sys2Proof.Machine

/-! ### System frame starts and marks -/

theorem posts_frameStart {s : State} (w : s.records.wf) : Posts IsRecord s.attention s.frameStart.attention :=
  posts_records posts_recompute (t := (framesTaken s).records.filter fun e => e.2.pending)
    (List.Pairwise.filter _ w) (framesTaken s)

theorem posts_startAt {s : State} (w : s.records.wf) (moment : Nat) (r : RefMonitor) :
    Posts IsRecord s.attention (s.startAt moment r).attention :=
  posts_frameStart (s := { s with ref := { r with point := moment, lastStart := moment } }) w

theorem lastStart_startAt (s : State) (moment : Nat) (r : RefMonitor) :
    (s.startAt moment r).ref.lastStart = moment :=
  congrArg RefMonitor.lastStart (ref_frameStart { s with ref := { r with point := moment, lastStart := moment } })

theorem attention_withPorts (s : State) (v : Vector Port 16) :
    ({ s with ports := v } : State).attention = s.attention := rfl

/-- The re-acquiring mark's start, the cut of the ports apart (R27). -/
theorem reacquireAt_start (s : State) (moment : Nat) : ∃ r : RefMonitor,
    (s.reacquireAt moment).attention = (s.startAt moment r).attention ∧
      (s.reacquireAt moment).ref = (s.startAt moment r).ref := by
  rw [State.reacquireAt]
  exact ⟨_, attention_withPorts .., ref_withPorts ..⟩

/-- What a mark posts: nothing where it makes no start, else what its start posts. -/
theorem posts_mark {s : State} (w : s.records.wf) (moment : Nat) :
    ((s.mark moment).attention = s.attention ∧ (s.mark moment).records = s.records ∧
      (s.mark moment).ref.lastStart = s.ref.lastStart) ∨
    (Posts IsRecord s.attention (s.mark moment).attention ∧ (s.mark moment).ref.lastStart = moment) := by
  obtain ⟨-, heq | ⟨-, heq⟩ | ⟨-, heq⟩⟩ | ⟨-, ⟨-, heq⟩ | ⟨-, heq⟩⟩ := mark_cases s moment
  · rw [heq]
    exact .inl ⟨rfl, rfl, rfl⟩
  · rw [heq]
    exact .inl ⟨rfl, rfl, rfl⟩
  · rw [heq]
    exact .inr ⟨posts_startAt w moment _, lastStart_startAt ..⟩
  · obtain ⟨r, hlist, href⟩ := reacquireAt_start s moment
    rw [heq, hlist, href]
    exact .inr ⟨posts_startAt w moment r, lastStart_startAt ..⟩
  · rw [heq]
    exact .inl ⟨rfl, rfl, rfl⟩

theorem posts_of_mark {s : State} (w : s.records.wf) (moment : Nat) :
    Posts IsRecord s.attention (s.mark moment).attention := by
  obtain ⟨h, -, -⟩ | ⟨h, -⟩ := posts_mark w moment
  · exact .of_eq h
  · exact h

theorem posts_frameMark {s : State} (w : s.records.wf) (n : PortNo) (m : Nat) (bits : List Bool) :
    Posts IsRecord s.attention (s.frameMark n m bits).attention := by
  unfold State.frameMark
  split
  · exact posts_of_mark w _
  · exact .refl _ _

/-- The mark taken before the oscillator's start falls after the last start (R23). -/
theorem lateMark_after {s : State} {m : Nat} (h : s.lateMark = some m) : s.ref.lastStart < m := by
  unfold State.lateMark at h
  split at h
  case h_1 n _ =>
    split at h
    case isTrue hlate =>
      obtain ⟨-, -, hlate⟩ := hlate
      obtain ⟨-, hplace⟩ := marksLate_iff.mp hlate
      rw [← Option.some.inj h, State.bitMoment, bitsNs_eq, Port.offset]
      omega
    case isFalse => cases h
  case h_2 => cases h

/-- The oscillator makes one start at most, its late mark's or its own. -/
theorem posts_oscillator {s : State} (w : s.records.wf) :
    Posts IsRecord s.attention (if s.takeLateMark.ref.lastStart = s.ref.lastStart then s.takeLateMark.oscillatorStart
      else s.takeLateMark).attention := by
  unfold State.takeLateMark
  split
  case h_1 m hm =>
    obtain ⟨hlist, hrecords, hstart⟩ | ⟨hposts, hstart⟩ := posts_mark w m
    · rw [if_pos hstart, ← hlist]
      exact posts_frameStart (by rw [← hrecords] at w; exact w)
    · rw [if_neg fun h => Nat.ne_of_gt (lateMark_after hm) (hstart.symm.trans h)]
      exact hposts
  case h_2 =>
    rw [if_pos rfl]
    exact posts_frameStart w

/-! ### Steps that post nothing of a line port -/

/-- What is posted of a change of a port has not moved. -/
def SameLine (p q : Port) : Prop :=
  q.sourceDefect = p.sourceDefect ∧ q.maint.farAlarm = p.maint.farAlarm ∧ q.maint.loop = p.maint.loop

theorem not_moved {p q : Port} (h : SameLine p q) (d : Change) : ¬ Moved p q d := by
  obtain ⟨hd, hf, hl⟩ := h
  rintro (⟨-, h⟩ | ⟨-, h⟩ | ⟨-, h⟩)
  · exact h hd.symm
  · exact h hf.symm
  · exact h hl.symm

/-- No port moves in what is posted of it, and nothing is posted of a port. -/
structure Calm (s t : State) : Prop where
  line : ∀ n : PortNo, SameLine s.ports[n] t.ports[n]
  posted : ∀ (n : PortNo) (d : Change), Posted t.attention (.port n) d ↔ Posted s.attention (.port n) d

theorem Calm.refl (s : State) : Calm s s := ⟨fun _ => ⟨rfl, rfl, rfl⟩, fun _ _ => Iff.rfl⟩

theorem Calm.trans {s t u : State} (h : Calm s t) (h' : Calm t u) : Calm s u where
  line n := by
    obtain ⟨hd, hf, hl⟩ := h.line n
    obtain ⟨hd', hf', hl'⟩ := h'.line n
    exact ⟨hd'.trans hd, hf'.trans hf, hl'.trans hl⟩
  posted n d := (h'.posted n d).trans (h.posted n d)

theorem calm_of_ports {s t : State} (hp : t.ports = s.ports)
    (ha : ∀ n d, Posted t.attention (.port n) d ↔ Posted s.attention (.port n) d) : Calm s t :=
  ⟨fun n => by rw [hp]; exact ⟨rfl, rfl, rfl⟩, ha⟩

theorem Posts.posted_port {id : Nat} {l l' : List Entry} (h : Posts (· = .record id) l l') (n : PortNo) (d : Change) :
    Posted l' (.port n) d ↔ Posted l (.port n) d :=
  h.posted_other Subject.noConfusion

/-- Records, one after another. -/
theorem posted_port_foldl {f : State → Nat → State}
    (hf : ∀ u id, Posts (· = .record id) u.attention (f u id).attention) (l : List Nat) (s : State) (n : PortNo)
    (d : Change) : Posted (l.foldl f s).attention (.port n) d ↔ Posted s.attention (.port n) d :=
  foldl_preserves (P := fun u => Posted u.attention (.port n) d ↔ Posted s.attention (.port n) d)
    (fun u id hu => ((hf u id).posted_port n d).trans hu) l Iff.rfl

theorem calm_frameStart (s : State) : Calm s s.frameStart where
  line n := by
    rw [port_frameStart_eq]
    refine ⟨rfl, ?_, ?_⟩
    · dsimp only
      split
      · rw [(tick_fields _).2]
        rfl
      · rw [(tick_fields _).2]
    · dsimp only
      split
      · rw [(tick_fields _).1]
        rfl
      · rw [(tick_fields _).1]
  posted n d := posted_port_foldl posts_recompute (framesTaken s).pendingSet (framesTaken s) n d

theorem calm_startAt (s : State) (moment : Nat) (r : RefMonitor) : Calm s (s.startAt moment r) :=
  (calm_of_ports (s := s) (t := { s with ref := { r with point := moment, lastStart := moment } }) rfl
    fun _ _ => Iff.rfl).trans (calm_frameStart _)

theorem calm_reacquireAt (s : State) (moment : Nat) : Calm s (s.reacquireAt moment) where
  line n := by
    obtain ⟨t, ht, -, heq⟩ := port_reacquireAt s moment n
    have hstart := (calm_frameStart t).line n
    rw [heq]
    rw [ht] at hstart
    generalize t.frameStart.ports[n] = q at hstart ⊢
    exact hstart
  posted n d := by
    obtain ⟨r, hlist, -⟩ := reacquireAt_start s moment
    rw [hlist]
    exact (calm_startAt s moment r).posted n d

theorem MarkStep.calm {s t : State} (h : MarkStep s t) : Calm s t := by
  cases h with
  | mark m =>
    obtain ⟨-, heq | ⟨-, heq⟩ | ⟨-, heq⟩⟩ | ⟨-, ⟨-, heq⟩ | ⟨-, heq⟩⟩ := mark_cases s m
    · rw [heq]
      exact .refl s
    · rw [heq]
      exact calm_of_ports rfl fun _ _ => Iff.rfl
    · rw [heq]
      exact calm_startAt ..
    · rw [heq]
      exact calm_reacquireAt s m
    · rw [heq]
      exact calm_of_ports rfl fun _ _ => Iff.rfl
  | oscillator => exact calm_startAt ..

theorem calm_marks {s t : State} (h : Relation.ReflTransGen MarkStep s t) : Calm s t :=
  marks_preserve (P := Calm s) (fun _ _ hstep hs => hs.trans hstep.calm) h (.refl s)

end Sys2Proof.Proofs
end

section
/-! PROOFS. The changes of the line ports and the postings of every command (O15). -/

namespace Sys2Proof.Proofs

open Sys2Proof Sys2Proof.Machine

/-! ### The source defect (R14) -/

theorem source_iff (d : Defects) :
    (d.source = .off ↔ d.off = true) ∧
    (d.source = .sigLost ↔ d.off = false ∧ d.sigLost = true) ∧
    (d.source = .aisIn ↔ d.off = false ∧ d.sigLost = false ∧ d.aisIn = true) ∧
    (d.source = .unframed ↔ d.off = false ∧ d.sigLost = false ∧ d.aisIn = false ∧ d.unframed = true) ∧
    (d.source = .slipExcess ↔ d.off = false ∧ d.sigLost = false ∧ d.aisIn = false ∧
      d.unframed = false ∧ d.slipExcess = true) ∧
    (d.source = .none ↔ d.off = false ∧ d.sigLost = false ∧ d.aisIn = false ∧ d.unframed = false ∧
      d.slipExcess = false) := by
  obtain ⟨off, sigLost, aisIn, unframed, slipExcess⟩ := d
  revert off sigLost aisIn unframed slipExcess
  decide

/-! ### What a change tells of a port -/

/-- What has moved of a port is posted; PORT_DEFECT is posted of no other. -/
structure Tells (s t : State) (n : PortNo) : Prop where
  defect : Moved s.ports[n] t.ports[n] .portDefect → Posted t.attention (.port n) .portDefect
  fresh : Posted t.attention (.port n) .portDefect →
    Posted s.attention (.port n) .portDefect ∨ Moved s.ports[n] t.ports[n] .portDefect

/-- What has moved of a port is posted, of any kind. -/
def TellsAll (s t : State) (n : PortNo) : Prop :=
  ∀ d, Moved s.ports[n] t.ports[n] d → Posted t.attention (.port n) d

theorem Calm.tells {s t : State} (h : Calm s t) (n : PortNo) : Tells s t n ∧ TellsAll s t n :=
  ⟨⟨fun hm => absurd hm (not_moved (h.line n) _), fun hp => .inl ((h.posted n _).mp hp)⟩,
    fun d hm => absurd hm (not_moved (h.line n) d)⟩

theorem not_moved_self (p : Port) (d : Change) : ¬ Moved p p d := not_moved ⟨rfl, rfl, rfl⟩ d

theorem tells_changeCounted (s : State) (m : PortNo) (x : Port × Bool) (n : PortNo) :
    Tells s (s.changeCounted m x) n ∧ TellsAll s (s.changeCounted m x) n := by
  have hposted : ∀ d, Posted (s.changeCounted m x).attention (.port n) d ↔
      (Posted s.attention (.port n) d ∨ m = n ∧ Moved s.ports[m] x.1 d) ∨ x.2 = true ∧ m = n ∧ .code = d := by
    intro d
    rw [posted_changeCounted, posted_changePort, Subject.port.injEq]
  by_cases hn : n = m
  · subst hn
    rw [TellsAll]
    have hport := port_changeCounted_same s n x
    refine ⟨⟨fun hm => ?_, fun hp => ?_⟩, fun d hm => ?_⟩
    · rw [hport] at hm
      exact (hposted _).mpr (.inl (.inr ⟨rfl, hm⟩))
    · rw [hport]
      obtain (h | ⟨-, h⟩) | ⟨-, -, h⟩ := (hposted _).mp hp
      · exact .inl h
      · exact .inr h
      · cases h
    · rw [hport] at hm
      exact (hposted _).mpr (.inl (.inr ⟨rfl, hm⟩))
  · rw [TellsAll]
    have hport := port_changeCounted_ne s x hn
    refine ⟨⟨fun hm => ?_, fun hp => ?_⟩, fun d hm => ?_⟩
    · rw [hport] at hm
      exact absurd hm (not_moved_self _ _)
    · obtain (h | ⟨h, -⟩) | ⟨-, h, -⟩ := (hposted _).mp hp
      · exact .inl h
      · exact absurd h.symm hn
      · exact absurd h.symm hn
    · rw [hport] at hm
      exact absurd hm (not_moved_self _ _)

theorem tells_changePorts (s : State) (f : Port → Port) (n : PortNo) :
    Tells s (s.changePorts f) n ∧ TellsAll s (s.changePorts f) n := by
  have hport := ports_changePorts s f n
  refine ⟨⟨fun hm => ?_, fun hp => ?_⟩, fun d hm => ?_⟩
  · rw [hport] at hm
    exact posted_changePorts.mpr (.inr hm)
  · rw [hport]
    exact posted_changePorts.mp hp
  · rw [hport] at hm
    exact posted_changePorts.mpr (.inr hm)

theorem attention_doDeviceReset (s : State) : (doDeviceReset s).2.attention = (resetPorts s).attention := by
  rw [doDeviceReset_eq]
  split
  · exact attention_setMport ..
  · rfl

theorem moved_reset_iff (p : Port) :
    Moved p (if p.maint.loop = .inwardHost then p.deviceReset.followLos else p.deviceReset) .portDefect ↔
      Reposts p := by
  have hsame : p.deviceReset.sourceDefect = p.sourceDefect := rfl
  split
  case isTrue hl => simp [Moved, Reposts, hl, hsame]
  case isFalse hl => simp [Moved, Reposts, hl, hsame]

/-- DEVICE_RESET posts each change of source defect, to an emptied list (R22, R186). -/
theorem tells_deviceReset (s : State) (n : PortNo) : Tells s (doDeviceReset s).2 n := by
  obtain ⟨moved, -, hmem, hlist⟩ := attention_reset s
  have hport : (doDeviceReset s).2.ports[n] = (resetPorts s).ports[n] := by rw [doDeviceReset_ports]
  have hmoved : Moved s.ports[n] (doDeviceReset s).2.ports[n] .portDefect ↔ n ∈ moved := by
    rw [hmem, hport, ports_resetPorts]
    exact moved_reset_iff s.ports[n]
  have hposted : Posted (doDeviceReset s).2.attention (.port n) .portDefect ↔ n ∈ moved := by
    rw [attention_doDeviceReset, hlist]
    constructor
    · rintro ⟨e, he, hx, -⟩
      obtain ⟨m, hm, rfl⟩ := List.mem_map.mp he
      obtain rfl : m = n := Subject.port.inj hx
      exact hm
    · exact fun hn => ⟨_, List.mem_map.mpr ⟨n, hn, rfl⟩, rfl, rfl⟩
  exact ⟨fun h => hposted.mpr (hmoved.mp h), fun h => .inr (hmoved.mpr (hposted.mp h))⟩

theorem calm_install (s : State) (id : Nat) (q : ConnectReq) (p : ConnectPlan) : Calm s (s.install id q p) := by
  refine calm_of_ports rfl fun n d => ?_
  change Posted (dropEntry s.attention (.record id)) _ _ ↔ _
  constructor
  · rintro ⟨e, he, h⟩
    exact ⟨e, (List.mem_filter.mp he).1, h⟩
  · rintro ⟨e, he, hx, hd⟩
    refine ⟨e, List.mem_filter.mpr ⟨he, decide_eq_true ?_⟩, hx, hd⟩
    rw [hx]
    exact Subject.noConfusion

theorem Alters.tells {c : Instr} {s t : State} (h : Alters c s t) (n : PortNo) :
    Tells s t n ∧ (c ≠ .deviceReset → TellsAll s t n) := by
  have hcalm : Calm s t → Tells s t n ∧ (c ≠ .deviceReset → TellsAll s t n) := fun h =>
    ⟨(h.tells n).1, fun _ => (h.tells n).2⟩
  cases h with
  | none => exact hcalm (.refl s)
  | port m q code h => exact ⟨(tells_changeCounted s m (q, code) n).1, fun _ => (tells_changeCounted s m (q, code) n).2⟩
  | sweep f h period =>
    have htells := tells_changePorts s f n
    generalize s.changePorts f = u at htells
    obtain ⟨⟨hdefect, hfresh⟩, hall⟩ := htells
    exact ⟨⟨hdefect, hfresh⟩, fun _ => hall⟩
  | evaluate turn period =>
    have hports : (s.evaluate turn).ports = s.ports := ports_of_lineSide (lineSide_evaluate s turn)
    have hposted := posted_port_foldl (posts_evaluateRecord turn) s.records.keys s
    exact hcalm (calm_of_ports hports hposted)
  | expireWaits turn =>
    refine hcalm (calm_of_ports ?_ fun n d => posted_port_foldl (posts_expireWait turn) s.records.keys s n d)
    exact ports_of_lineSide (foldl_keeps (lineSide_expireWait turn) s.records.keys s)
  | missWindow | markTimeout | choose | enables => exact hcalm (calm_of_ports rfl fun _ _ => Iff.rfl)
  | fetch hc e rest hrest =>
    refine ⟨⟨fun hm => absurd hm (not_moved_self _ _), ?_⟩, fun _ d hm => absurd hm (not_moved_self _ _)⟩
    rintro ⟨a, ha, h⟩
    refine .inl ⟨a, ?_, h⟩
    rw [hrest]
    exact List.mem_cons_of_mem _ ha
  | install q p id => exact hcalm (calm_install s id q p)
  | record act hact id r =>
    exact hcalm (calm_of_ports (ports_of_lineSide (hact.keeps_lineSide id r s)) (hact.posts id r s).posted_port)
  | deviceReset hc => exact ⟨tells_deviceReset s n, fun h => absurd hc h⟩

theorem Finish.calm {c : Instr} {s t : State} (h : Finish c s t) :
    t.ports = s.ports ∧ t.attention = s.attention := by
  have hinner := h.keeps_inner
  simp only [inner, Prod.mk.injEq] at hinner
  obtain ⟨hports, -, -, -, -, -, -, -, hattention, -⟩ := hinner
  exact ⟨hports, hattention⟩

theorem moved_congr {p p' q : Port} (h : SameLine p p') (d : Change) : Moved p' q d ↔ Moved p q d := by
  obtain ⟨hd, hf, hl⟩ := h
  rw [Moved, Moved, hd, hf, hl]

/-- Every command but RST_ASSERT tells of the ports; DEVICE_RESET of their source defects alone. -/
theorem exec_tells {c : Instr} {s t : State} (hc : c ≠ .rstAssert) (h : exec c s = .next t) (n : PortNo) :
    Tells s t n ∧ (c ≠ .deviceReset → TellsAll s t n) := by
  obtain ⟨u, v, hmarks, halters, hfinish⟩ := effect_of_exec hc h
  have hcalm : Calm s u := by
    obtain ⟨-, hmarks⟩ | rfl := hmarks
    · exact calm_marks hmarks
    · exact .refl u
  obtain ⟨hports, hattention⟩ := hfinish.calm
  obtain ⟨⟨hdefect, hfresh⟩, hall⟩ := halters.tells n
  have hmoved := fun d => moved_congr (q := v.ports[n]) (hcalm.line n) d
  simp only [hmoved, hcalm.posted, TellsAll] at hdefect hfresh hall
  have hport : t.ports[n] = v.ports[n] := by rw [hports]
  refine ⟨⟨?_, ?_⟩, fun hc d => ?_⟩
  · rw [hport, hattention]
    exact hdefect
  · rw [hport, hattention]
    exact hfresh
  · rw [hport, hattention]
    exact hall hc d

/-! ### Ascending postings -/

/-- The commands that take no entry from the list. -/
structure TakesNone (c : Instr) : Prop where
  attention : c ≠ .attention
  connect : ∀ q, c ≠ .connect q
  deviceReset : c ≠ .deviceReset
  rstAssert : c ≠ .rstAssert

/-- Without a mark, one sweep at most posts. -/
theorem Alters.posts {c : Instr} {s t : State} (h : Alters c s t) (w : s.records.wf) (hc : TakesNone c) :
    Posts (fun _ => True) s.attention t.attention := by
  cases h with
  | none => exact .refl _ _
  | port n q code h => exact (posts_changeCounted s n (q, code)).mono fun _ _ => trivial
  | sweep f h period =>
    have hposts := posts_changePorts s f
    generalize s.changePorts f = u at hposts
    exact hposts.mono fun _ _ => trivial
  | evaluate turn period =>
    have hposts := posts_records (posts_evaluateRecord turn) w s
    exact hposts.mono fun _ _ => trivial
  | expireWaits turn => exact (posts_records (posts_expireWait turn) w s).mono fun _ _ => trivial
  | missWindow | markTimeout | choose | enables => exact .refl _ _
  | fetch h => exact absurd h hc.attention
  | install q p id h => exact absurd h (hc.connect q)
  | record act hact id r => exact (hact.posts id r s).mono fun _ _ => trivial
  | deviceReset h => exact absurd h hc.deviceReset

/-- A frame's mark posts to records, and its counts to its port. -/
theorem posts_frame {s : State} (w : s.records.wf) (n : PortNo) (m : Nat) (bits : List Bool) (x : Port × Bool) :
    Posts (fun _ => True) s.attention ((s.frameMark n m bits).changeCounted n x).attention := by
  refine (posts_frameMark w n m bits).append (posts_changeCounted _ n x) ?_ (fun _ _ => trivial) fun _ _ => trivial
  rintro y z ⟨id, rfl⟩ rfl
  exact ordered_record_port id n

theorem exec_posts {c : Instr} {s t : State} (w : s.records.wf) (hc : TakesNone c) (h : exec c s = .next t) :
    Posts (fun _ => True) s.attention t.attention := by
  obtain ⟨u, v, hmarks, halters, hfinish⟩ := effect_of_exec hc.rstAssert h
  have hstill : u = s → Posts (fun _ => True) s.attention t.attention := by
    rintro rfl
    rw [hfinish.calm.2]
    exact halters.posts w hc
  obtain ⟨hstart, -⟩ | hu := hmarks
  · cases c
    case sfrMark m =>
      have hexec : exec (.sfrMark m) s = if s.rst = false ∧ s.ref.selection = .external then .next (s.mark m)
          else .next s := rfl
      rw [hexec] at h
      split at h
      · cases h
        exact (posts_of_mark w m).mono fun _ _ => trivial
      · cases h
        exact .refl _ _
    case oscillatorFrameStart =>
      have hexec : exec .oscillatorFrameStart s = if s.rst then .next s else
          .next (if s.takeLateMark.ref.lastStart = s.ref.lastStart then s.takeLateMark.oscillatorStart
            else s.takeLateMark) := rfl
      rw [hexec] at h
      split at h
      · cases h
        exact .refl _ _
      · obtain rfl := Host.Outcome.next.inj h
        exact (posts_oscillator w).mono fun _ _ => trivial
    case alignedFrameReceived n m a b =>
      rw [exec_alignedFrameReceived] at h
      obtain rfl := Host.Outcome.next.inj h
      exact posts_frame w n m (a ++ b) _
    all_goals
      obtain ⟨n, m, a, b, heq, -⟩ := hstart (fun _ => Instr.noConfusion) Instr.noConfusion
      cases heq
  · exact hstill hu

/-- Settles O15. -/
theorem portChangesArePosted : Obligations.PortChangesArePosted := by
  refine ⟨source_iff, fun c s t n hc h => ?_, fun l x k => ⟨?_, fun h => postTo_absent h k⟩,
    fun c s t w h hfetch hconnect hreset hrst => ?_⟩
  · obtain ⟨⟨hdefect, hfresh⟩, hall⟩ := exec_tells hc h n
    refine ⟨fun hne => hdefect (.inl ⟨rfl, Ne.symm hne⟩), fun hsame e he hx hd => ?_, fun hreset hne => ?_,
      fun hreset hne => ?_⟩
    · obtain hold | ⟨-, hne⟩ | ⟨hd, -⟩ | ⟨hd, -⟩ := hfresh ⟨e, he, hx, hd⟩
      · exact hold
      · exact absurd hsame.symm hne
      · cases hd
      · cases hd
    · exact hall hreset .loop (.inr (.inr ⟨rfl, Ne.symm hne⟩))
    · exact hall hreset .farAlarm (.inr (.inl ⟨rfl, Ne.symm hne⟩))
  · rintro before e after rfl hx hno
    exact postTo_merges hx hno k
  · obtain ⟨hnew, hkeeps⟩ := (exec_posts w.records ⟨hfetch, hconnect, hreset, hrst⟩ h).grows
    refine ⟨hnew, fun i e he => ?_⟩
    obtain ⟨e', he', hhas⟩ := hkeeps i e he
    exact ⟨e', he', hhas .health, hhas .select, hhas .state, hhas .portDefect, hhas .farAlarm, hhas .code, hhas .loop⟩

end Sys2Proof.Proofs
end
